-- ==== Sys2Proof/Word.lean ====
section
/-! DEFINITION. The word types of the MK12 (00_scope R6, R9; 20_memory R61). Bit 0 is the least significant bit (R8). -/

namespace Sys2Proof

/-- A 12-bit word: every register, memory cell and address (00_scope R9). -/
abbrev Word := BitVec 12

/-- An 8-bit character of a device (45_devices R253) or of a load file. -/
abbrev Byte := BitVec 8

/-- A 6-bit device selector (20_memory R60). -/
abbrev Selector := BitVec 6

end Sys2Proof
end

