-- ==== Sys2Proof/Config.lean ====
section
/-! DEFINITION. What is fixed for the machine (00_scope R2, R6, R7), the types of what comes to the engine from outside
(keys, stage calls and their answers), and the free values of the model. -/

namespace Sys2Proof.Machine

/-- One observation of the panel's control input (41_cycle R142). -/
inductive Key where
  | none
  | continue
  | step
  | other
  deriving DecidableEq, Repr, Inhabited

/-- The pulses in the order they are applied (43_iot R194). -/
inductive Pulse where
  | iop1
  | iop2
  | iop4
  deriving DecidableEq, Repr

/-- The three signals of an IOT stage (43_iot R191, R195). -/
structure Signals where
  skip : Bool := false
  clear : Bool := false
  orInput : Bool := false
  deriving DecidableEq, Repr, Inhabited

/-- What a stage answers: its signals, or a failure of the device's backing store (43_iot R198). -/
inductive StageResult where
  | signals (g : Signals)
  | ioError
  deriving DecidableEq, Repr, Inhabited

end Sys2Proof.Machine

namespace Sys2Proof

open Sys2Proof.Machine (Key Pulse StageResult)

/-- The identity string of the hardware (00_scope R2). -/
def Config.identity : String := "MK12/mksim-v7-core"

/-- The number of memory words (00_scope R6). -/
def Config.memoryWords : Nat := 4096

/-- What a memory cell reads as that no loader and no instruction wrote (10_state R38, 70_reset R345). -/
def Config.unlisted : Word := 0

/-! ### Free values: draws "from the environment, under no law" (00_scope R11)

Each answers the n-th draw for which the environment's list holds nothing (assumptions 5 to 9). None has a body, so
nothing can be proved about a value. -/

/-- FREE VALUE (assumption 5). A key sample (41_cycle R142). -/
opaque Config.panelKey : Nat → Key

/-- FREE VALUE (assumption 6). A switch sample: "the engine puts no law on it" (41_cycle R150). -/
opaque Config.panelSwitches : Nat → Word

/-- FREE VALUE (assumption 7). The bytes typed since the last `buffered_count()` call (45_devices R251). -/
opaque Config.typedBytes : Nat → List Byte

/-- FREE VALUE (assumption 8). Whether the printer's `available()` is nonzero: "The engine puts no law on r"
(45_devices R261). -/
opaque Config.printerReady : Nat → Bool

/-- FREE VALUE (assumption 9). Whether a read of the reader's backing store fails (45_devices R251, R275). -/
opaque Config.readerFails : Nat → Bool

/-- FREE VALUE (assumption 9). Whether a write of the punch's backing store fails (45_devices R279). -/
opaque Config.punchFails : Nat → Bool

/-! ### Free values: the operations of a device of which nothing is known (43_iot R191, assumption 4)

The first argument is the device, the number after it what the device remembers. -/

/-- FREE VALUE (assumption 4). `select`: what the device then remembers, or none when it does not claim. -/
opaque Config.deviceSelect : Nat → Nat → Selector → Word → Option Nat

/-- FREE VALUE (assumption 4). `get`. -/
opaque Config.deviceGet : Nat → Nat → Word

/-- FREE VALUE (assumption 4). `iop1`, `iop2`, `iop4`: the answer and what the device then remembers. -/
opaque Config.deviceStage : Nat → Nat → Pulse → StageResult × Nat

end Sys2Proof
end

