-- ==== Sys2Proof/Syntax.lean ====
section
/-! DEFINITION. The instructions: one constructor for each of the 54 rows of spec/opcode_table.json (30_encoding
R91 to R99). A word belongs to the most specific row that names it (assumption 10). -/

namespace Sys2Proof

/-- The fields of a memory-reference instruction (30_encoding R91): I, P, offset. -/
structure Mri where
  indirect : Bool
  page : Bool
  offset : BitVec 7
  deriving DecidableEq, Repr

/-- The pulse bits of an IOT (30_encoding R95). -/
structure Pulses where
  iop4 : Bool := false
  iop2 : Bool := false
  iop1 : Bool := false
  deriving DecidableEq, Repr

/-- The group 1 micro-operation bits, bit 7 first (30_encoding R97). -/
structure Group1 where
  cla : Bool := false
  cll : Bool := false
  cma : Bool := false
  cml : Bool := false
  rar : Bool := false
  ral : Bool := false
  twice : Bool := false
  iac : Bool := false
  deriving DecidableEq, Repr

/-- The group 1 bits that select no rotate: bits 7, 6, 5, 4 and 0 (30_encoding R97). -/
structure Group1Plain where
  cla : Bool := false
  cll : Bool := false
  cma : Bool := false
  cml : Bool := false
  iac : Bool := false
  deriving DecidableEq, Repr

/-- The group 2 micro-operation bits, bit 7 first (30_encoding R98). -/
structure Group2 where
  cla : Bool := false
  sma : Bool := false
  sza : Bool := false
  snl : Bool := false
  sense : Bool := false
  osr : Bool := false
  hlt : Bool := false
  deriving DecidableEq, Repr

/-- Every instruction of the opcode table. -/
inductive Instr where
  -- memory reference, opcodes 0 to 5
  | and (m : Mri)
  | tad (m : Mri)
  | isz (m : Mri)
  | dca (m : Mri)
  | jms (m : Mri)
  | jmp (m : Mri)
  -- the primary rows of opcodes 6 and 7: the words no other row names
  | iot (sel : Selector) (p : Pulses)
  | opr1 (g : Group1)
  | opr2 (g : Group2)
  | opr3 (bits : BitVec 7)
  -- group 1 words with a name
  | nop
  | cla
  | cll
  | cma
  | cml
  | iac
  | rar
  | ral
  | rtr
  | rtl
  | opr1Bit1Alone (q : Group1Plain)
  | opr1BothRotates (q : Group1Plain) (twice : Bool)
  -- group 2 words with a name
  | nopGroup2
  | claGroup2
  | sma
  | sza
  | snl
  | spa
  | sna
  | szl
  | skp
  | osr
  | hlt
  -- paper-tape reader and punch words
  | rsf
  | rrb
  | rfc
  | rrbRfc
  | psf
  | pcf
  | ppc
  | pls
  -- keyboard and printer words
  | ksf
  | kcc
  | krs
  | krb
  | tsf
  | tcf
  | tpc
  | tls
  -- the remaining pulse sets of the reference selectors, and selector 0o00
  | iotReaderOtherPulseSets (p : Pulses)
  | iotPunchOtherPulseSets (p : Pulses)
  | iotKeyboardOtherPulseSets (p : Pulses)
  | iotPrinterOtherPulseSets (p : Pulses)
  | iotUnclaimedSelector (p : Pulses)
  deriving DecidableEq, Repr

end Sys2Proof
end

