-- ==== Sys2Proof/Machine/State.lean ====
section
/-! DEFINITION. Everything the spec gives the machine as state (10_state R20 to R38, 45_devices R251, R252, R270), as
plain data; the launch that creates it (70_reset R330) and the state after reset. -/

namespace Sys2Proof.Machine

/-- The three fatal engine errors (60_exceptions R301 to R303). -/
inductive FaultKind where
  | unimplementedOperation
  | deviceIO
  | invalidOperation
  deriving DecidableEq, Repr

/-- RUN (10_state R32): `fault kind addr ir` is the terminal state of 60_exceptions R300. -/
inductive RunState where
  | running
  | waiting
  | off
  | fault (kind : FaultKind) (addr ir : Word)
  deriving DecidableEq, Repr

/-- The teletype's last-selected sub-device (45_devices R252). -/
inductive TtySub where
  | none
  | kbd
  | prt
  deriving DecidableEq, Repr

/-- The teletype's private state (45_devices R252). -/
structure Tty where
  sub : TtySub := .none
  ac : Word := 0
  kbuf : Byte := 0
  deriving DecidableEq, Repr

/-- The paper-tape unit's last-selected sub-device (45_devices R270). -/
inductive TapeSub where
  | none
  | rdr
  | pun
  deriving DecidableEq, Repr

/-- The paper-tape unit's private state (45_devices R270). -/
structure Tape where
  sub : TapeSub := .none
  ac : Word := 0
  rbuf : Byte := 0
  rflag : Bool := false
  pflag : Bool := false
  deriving DecidableEq, Repr

/-- When a row of a table device applies: in one phase or in every phase, and for the AC copies whose bits under
`acMask` are `acBits` (assumption 4). -/
structure DeviceGuard where
  phase : Option Nat := none
  acMask : Word := 0
  acBits : Word := 0
  deriving DecidableEq, Repr

/-- A selection a table device claims, and the phase it then is in (none: as before). -/
structure SelectRow where
  sel : Selector
  guard : DeviceGuard := {}
  next : Option Nat := none
  deriving DecidableEq, Repr

/-- What a table device's `get` returns: `value`, with the bits of its AC copy under `echo`. -/
structure GetRow where
  guard : DeviceGuard := {}
  value : Word := 0
  echo : Word := 0
  deriving DecidableEq, Repr

/-- What a stage of a table device answers, and the phase it then is in (none: as before). -/
structure StageRow where
  guard : DeviceGuard := {}
  answer : StageResult
  next : Option Nat := none
  deriving DecidableEq, Repr

/-- A device given by tables for the five operations of 43_iot R191. Its own state is the phase and the copy of AC that
its last claim took; in each table the first row that applies counts (assumption 4). -/
structure TableDevice where
  phase : Nat := 0
  ac : Word := 0
  selectRows : List SelectRow := []
  getRows : List GetRow := []
  iop1Rows : List StageRow := []
  iop2Rows : List StageRow := []
  iop4Rows : List StageRow := []
  deriving DecidableEq, Repr

/-- A device other than the two reference devices (43_iot R191, R192; 93_implementation U17): one given by tables, or
one of which nothing is known but the contract, whose operations are the free values `Config.deviceSelect`,
`Config.deviceGet` and `Config.deviceStage` (assumption 4). -/
inductive OtherDevice where
  | table (t : TableDevice)
  | uninterpreted (device memory : Nat)
  deriving DecidableEq, Repr

/-- An entry of the device list (10_state R35): the teletype, the paper-tape unit, or the n-th other device. -/
inductive Device where
  | tty
  | tape
  | other (n : Nat)
  deriving DecidableEq, Repr

/-- The environment (45_devices R251, 41_cycle R142, R150): draws to come, oldest first, and logs so far, oldest
first. A draw from an exhausted list is a free value (assumptions 5 to 9). -/
structure Environment where
  /-- Key samples to come (41_cycle R142). -/
  keys : List Key := []
  /-- Switch samples to come (41_cycle R150). -/
  switches : List Word := []
  /-- KBD_Q: bytes typed and not yet read. -/
  kbdQ : List Byte := []
  /-- Bytes that arrive before each coming `buffered_count()` call (assumption 7). -/
  kbdArrivals : List (List Byte) := []
  /-- PRT_LOG: bytes printed. -/
  prtLog : List Byte := []
  /-- Answers of `available() != 0` to come (45_devices R261). -/
  prtReady : List Bool := []
  /-- RDR_TAPE: the tape in the reader. -/
  rdrTape : List Byte := []
  /-- RDR_POS: the read position. -/
  rdrPos : Nat := 0
  /-- Whether each coming read of the reader's backing store fails (45_devices R275). -/
  rdrFails : List Bool := []
  /-- PUN_LOG: bytes punched. -/
  punLog : List Byte := []
  /-- Whether each coming write of the punch's backing store fails (45_devices R279). -/
  punFails : List Bool := []
  /-- The model's own counter: the argument of the next free value (assumptions 5 to 9). -/
  freeDraws : Nat := 0
  deriving DecidableEq, Repr

/-- Memory: (address, word) pairs in one canonical form, see `Memory.wf` (assumption 1). -/
abbrev Memory := List (Nat × Word)

/-- The whole state. -/
structure State where
  /-- Program counter (10_state R27). -/
  pc : Word
  /-- Instruction register (10_state R26). -/
  ir : Word
  /-- Accumulator (10_state R22). -/
  ac : Word
  /-- The link L (10_state R28). -/
  link : Bool
  /-- Memory address register (10_state R24). -/
  ma : Word
  /-- Memory buffer register (10_state R25). -/
  mb : Word
  /-- Switch register (10_state R31). -/
  sr : Word
  /-- The 4096 words (10_state R34). -/
  mem : Memory
  /-- HALT (10_state R30). -/
  halt : Bool
  /-- SSTEP (10_state R30). -/
  sstep : Bool
  /-- EXIT (10_state R30). -/
  exit : Bool
  /-- RUN (10_state R32). -/
  run : RunState
  /-- The teletype (45_devices R252). -/
  tty : Tty
  /-- The paper-tape unit (45_devices R270). -/
  tape : Tape
  /-- DEVICES, a launch parameter no step changes (10_state R35). -/
  devices : List Device
  /-- The other devices, each with its own state (assumption 4). -/
  others : List OtherDevice
  /-- The environment (45_devices R251). -/
  env : Environment
  deriving DecidableEq, Repr

/-- The launch parameters (00_scope R7): PC_RESET and DEVICES have the spec's defaults; HALT_INIT and EXIT_INIT have
none there, and false here (assumption 3). -/
structure Launch where
  pcReset : Word := 0
  haltInit : Bool := false
  exitInit : Bool := false
  devices : List Device := [.tty, .tape]
  others : List OtherDevice := []
  memImage : Memory := []
  env : Environment := {}
  deriving DecidableEq, Repr

/-- The state a launch creates (10_state R38, 70_reset R330). -/
def State.launch (p : Launch) : State where
  pc := p.pcReset
  ir := 0
  ac := 0
  link := false
  ma := 0
  mb := 0
  sr := 0
  mem := p.memImage
  halt := p.haltInit
  sstep := false
  exit := p.exitInit
  run := .running
  tty := {}
  tape := {}
  devices := p.devices
  others := p.others
  env := p.env

/-- The machine right after reset: the launch with every parameter at its default and an image that lists nothing. -/
def State.reset : State := State.launch {}

/-- Why a step stops. Both are raised by `step` alone, and only in a state the spec calls terminal: no meaning of an
instruction raises one. -/
inductive Fault where
  /-- RUN is FAULT(kind, addr, ir): "No cycle follows; no state changes afterwards" (60_exceptions R300). Safe: the
  spec gives no further step. -/
  | engine (kind : FaultKind) (addr ir : Word)
  /-- RUN is OFF: "no further cycle, no further change of any state" (41_cycle R147). Safe: the spec gives no further
  step. -/
  | poweredOff
  deriving DecidableEq, Repr

/-- Why a meaning is missing. -/
inductive Refusal where
  /-- Raised by `exec` for an instruction with no meaning yet; none is left. Safe: nothing runs. -/
  | notModelled (mnemonic : String)
  deriving DecidableEq, Repr

/-- The outcome of an instruction or a step. -/
abbrev Result := Host.Outcome State Fault Refusal

end Sys2Proof.Machine
end

