-- ==== Sys2Proof/Machine/Ops.lean ====
section
/-! DEFINITION. The operations over registers and memory that every meaning is built from, and raising a fault. -/

namespace Sys2Proof.Machine

/-! ### Memory (20_memory R60 to R70) -/

/-- `MEM[a]` by number: the listed word, else what an unlisted cell reads as. -/
def Memory.readAt (m : Memory) (a : Nat) : Word :=
  match m with
  | [] => Config.unlisted
  | (b, v) :: rest => if b = a then v else Memory.readAt rest a

/-- Puts an entry in address order. -/
def Memory.insert (a : Nat) (v : Word) : Memory → Memory
  | [] => [(a, v)]
  | (b, u) :: rest => if a < b then (a, v) :: (b, u) :: rest else (b, u) :: Memory.insert a v rest

/-- Takes out every entry of an address. -/
def Memory.erase (a : Nat) : Memory → Memory
  | [] => []
  | (b, u) :: rest => if b = a then Memory.erase a rest else (b, u) :: Memory.erase a rest

/-- `MemRead(a)` (00_scope R11): one word, no side effect. -/
def Memory.read (m : Memory) (a : Word) : Word := m.readAt a.toNat

/-- `MemWrite(a, v)` (00_scope R11). Writing what an unlisted cell reads as takes the entry out. -/
def Memory.write (m : Memory) (a v : Word) : Memory :=
  if v = Config.unlisted then Memory.erase a.toNat m else Memory.insert a.toNat v (Memory.erase a.toNat m)

/-- The entries are at rising addresses from `lo` on, inside memory, and none is what an unlisted cell reads as. -/
def Memory.wfFrom (lo : Nat) : Memory → Bool
  | [] => true
  | (a, v) :: rest =>
    decide (lo ≤ a) && decide (a < Config.memoryWords) && decide (v ≠ Config.unlisted) && Memory.wfFrom (a + 1) rest

/-- The canonical form: equal memories are equal lists. -/
def Memory.wf (m : Memory) : Bool := Memory.wfFrom 0 m

/-! ### Updates of one field -/

def State.setPc (s : State) (v : Word) : State := { s with pc := v }
def State.setIr (s : State) (v : Word) : State := { s with ir := v }
def State.setAc (s : State) (v : Word) : State := { s with ac := v }
def State.setLink (s : State) (v : Bool) : State := { s with link := v }
def State.setMa (s : State) (v : Word) : State := { s with ma := v }
def State.setMb (s : State) (v : Word) : State := { s with mb := v }
def State.setSr (s : State) (v : Word) : State := { s with sr := v }
def State.setMem (s : State) (v : Memory) : State := { s with mem := v }
def State.setHalt (s : State) (v : Bool) : State := { s with halt := v }
def State.setSstep (s : State) (v : Bool) : State := { s with sstep := v }
def State.setRun (s : State) (v : RunState) : State := { s with run := v }
def State.setTty (s : State) (v : Tty) : State := { s with tty := v }
def State.setTape (s : State) (v : Tape) : State := { s with tape := v }
def State.setOthers (s : State) (v : List OtherDevice) : State := { s with others := v }
def State.setEnv (s : State) (v : Environment) : State := { s with env := v }

/-! ### Draws from the environment -/

/-- `draw x : T` (00_scope R11): the next listed value, else the free value of the counter, which advances
(assumptions 5 to 9). The answer, what stays listed, and the counter. -/
def draw {α : Type} (free : Nat → α) (listed : List α) (count : Nat) : α × List α × Nat :=
  match listed with
  | [] => (free count, [], count + 1)
  | v :: later => (v, later, count)

/-! ### Operations -/

/-- `MEM[a]` of the state. -/
def State.readMem (s : State) (a : Word) : Word := s.mem.read a

/-- `MEM[a] <- v` in the state. -/
def State.writeMem (s : State) (a v : Word) : State := s.setMem (s.mem.write a v)

/-- `skip`: `PC <- (PC + 1) mod 4096` (00_scope R11, 10_state R27). -/
def State.skip (s : State) : State := s.setPc (s.pc + 1)

/-- `skip` when a condition holds. -/
def State.skipIf (s : State) (c : Bool) : State := if c then s.skip else s

/-- `raise <Fault>(addr = MA, ir = IR)` (00_scope R11, 60_exceptions R300): the terminal run state, nothing else.
There is no vector, no saved register and no return (60_exceptions R310, R311). -/
def State.raise (s : State) (kind : FaultKind) : State := s.setRun (.fault kind s.ma s.ir)

end Sys2Proof.Machine
end

