-- ==== Sys2Proof/Machine/Devices.lean ====
section
/-! DEFINITION. The devices behind the bus: the teletype (45_devices R252 to R266), the paper-tape unit (R270 to R282),
and the other devices (assumption 4). A device sees its own state and the environment, never the engine's registers or
memory (43_iot R192). -/

namespace Sys2Proof.Machine

/-! ### The host side (45_devices R251) -/

/-- `buffered_count()`: the bytes typed by now join the queue (assumption 7). -/
def Environment.arrive (e : Environment) : Environment :=
  let d := draw Config.typedBytes e.kbdArrivals e.freeDraws
  { e with kbdQ := e.kbdQ ++ d.1, kbdArrivals := d.2.1, freeDraws := d.2.2 }

/-- `available() != 0` (45_devices R261, assumption 8). -/
def Environment.drawReady (e : Environment) : Bool × Environment :=
  let d := draw Config.printerReady e.prtReady e.freeDraws
  (d.1, { e with prtReady := d.2.1, freeDraws := d.2.2 })

/-- `write_byte(b)` of the printer. -/
def Environment.print (e : Environment) (b : Byte) : Environment := { e with prtLog := e.prtLog ++ [b] }

/-- Whether this read of the reader's backing store fails (assumption 9). -/
def Environment.drawReaderFails (e : Environment) : Bool × Environment :=
  let d := draw Config.readerFails e.rdrFails e.freeDraws
  (d.1, { e with rdrFails := d.2.1, freeDraws := d.2.2 })

/-- Whether this write of the punch's backing store fails (assumption 9). -/
def Environment.drawPunchFails (e : Environment) : Bool × Environment :=
  let d := draw Config.punchFails e.punFails e.freeDraws
  (d.1, { e with punFails := d.2.1, freeDraws := d.2.2 })

/-- A byte appended to PUN_LOG. -/
def Environment.punch (e : Environment) (b : Byte) : Environment := { e with punLog := e.punLog ++ [b] }

/-- The character an output device sends: `ac[7:0]` (45_devices R253). -/
def lowByte (ac : Word) : Byte := ac.extractLsb' 0 8

/-! ### Teletype -/

/-- The sub-device a selector names on the teletype: keyboard 0o03, printer 0o04 (45_devices R254). -/
def Tty.subOf (sel : Selector) : Option TtySub :=
  if sel = 0o03 then some .kbd else if sel = 0o04 then some .prt else none

/-- `TTY.select`: none when the selector is not the teletype's (45_devices R254). -/
def Tty.select (sel : Selector) (ac : Word) (t : Tty) : Option Tty :=
  match Tty.subOf sel with
  | some sub => some { t with sub := sub, ac := ac }
  | none => none

/-- `TTY.get` (45_devices R255). -/
def Tty.get (t : Tty) : Word :=
  match t.sub with
  | .kbd => t.kbuf.setWidth 12
  | .prt => 0
  | .none => 0

/-- KRS's device side: one byte if any is waiting (45_devices R258). -/
def Tty.takeCharacter (t : Tty) (e : Environment) : Tty × Environment :=
  match e.kbdQ with
  | [] => (t, e)
  | b :: rest => ({ t with kbuf := b }, { e with kbdQ := rest })

/-- The keyboard's stages (45_devices R256, R257, R258). -/
def Tty.keyboardStage (k : Pulse) (t : Tty) (e : Environment) : StageResult × Tty × Environment :=
  match k with
  | .iop1 => (.signals { skip := !e.arrive.kbdQ.isEmpty }, t, e.arrive)
  | .iop2 => (.signals { clear := true }, t, e)
  | .iop4 => (.signals { orInput := true }, t.takeCharacter e.arrive)

/-- The printer's stages (45_devices R261, R262, R263). -/
def Tty.printerStage (k : Pulse) (t : Tty) (e : Environment) : StageResult × Tty × Environment :=
  match k with
  | .iop1 => (.signals { skip := e.drawReady.1 }, t, e.drawReady.2)
  | .iop2 => (.signals {}, t, e)
  | .iop4 => (.signals {}, t, e.print (lowByte t.ac))

/-- The teletype's stages; with nothing selected, which the bus never asks (43_iot R192), no signal and no effect
(assumption 13). -/
def Tty.stage (k : Pulse) (t : Tty) (e : Environment) : StageResult × Tty × Environment :=
  match t.sub with
  | .kbd => t.keyboardStage k e
  | .prt => t.printerStage k e
  | .none => (.signals {}, t, e)

/-! ### Paper tape -/

/-- The sub-device a selector names on the tape unit: reader 0o01, punch 0o02 (45_devices R271). -/
def Tape.subOf (sel : Selector) : Option TapeSub :=
  if sel = 0o01 then some .rdr else if sel = 0o02 then some .pun else none

/-- `TAPE.select`: none when the selector is not the tape unit's (45_devices R271). -/
def Tape.select (sel : Selector) (ac : Word) (t : Tape) : Option Tape :=
  match Tape.subOf sel with
  | some sub => some { t with sub := sub, ac := ac }
  | none => none

/-- `TAPE.get` (45_devices R272). -/
def Tape.get (t : Tape) : Word :=
  match t.sub with
  | .rdr => t.rbuf.setWidth 12
  | .pun => 0
  | .none => 0

/-- A read that does not fail: the byte at the position, or a zero byte at the end (45_devices R275). -/
def Tape.readCharacter (t : Tape) (e : Environment) : Tape × Environment :=
  match e.rdrTape[e.rdrPos]? with
  | some b => ({ t with rbuf := b, rflag := true }, { e with rdrPos := e.rdrPos + 1 })
  | none => ({ t with rbuf := 0, rflag := true }, e)

/-- RFC's stage: the flag is cleared, then the read is tried (45_devices R275). -/
def Tape.fetchCharacter (t : Tape) (e : Environment) : StageResult × Tape × Environment :=
  if e.drawReaderFails.1 then (.ioError, { t with rflag := false }, e.drawReaderFails.2)
  else (.signals {}, t.readCharacter e.drawReaderFails.2)

/-- PPC's stage: a write that fails leaves log and flag as they were (45_devices R279, assumption 12). -/
def Tape.punchCharacter (t : Tape) (e : Environment) : StageResult × Tape × Environment :=
  if e.drawPunchFails.1 then (.ioError, t, e.drawPunchFails.2)
  else (.signals {}, { t with pflag := true }, e.drawPunchFails.2.punch (lowByte t.ac))

/-- The reader's stages (45_devices R273, R274, R275). -/
def Tape.readerStage (k : Pulse) (t : Tape) (e : Environment) : StageResult × Tape × Environment :=
  match k with
  | .iop1 => (.signals { skip := t.rflag }, t, e)
  | .iop2 => (.signals { orInput := true }, { t with rflag := false }, e)
  | .iop4 => t.fetchCharacter e

/-- The punch's stages (45_devices R277, R278, R279). -/
def Tape.punchStage (k : Pulse) (t : Tape) (e : Environment) : StageResult × Tape × Environment :=
  match k with
  | .iop1 => (.signals { skip := t.pflag }, t, e)
  | .iop2 => (.signals {}, { t with pflag := false }, e)
  | .iop4 => t.punchCharacter e

/-- The tape unit's stages; with nothing selected, as for the teletype (assumption 13). -/
def Tape.stage (k : Pulse) (t : Tape) (e : Environment) : StageResult × Tape × Environment :=
  match t.sub with
  | .rdr => t.readerStage k e
  | .pun => t.punchStage k e
  | .none => (.signals {}, t, e)

/-! ### Other devices (43_iot R191, R192; assumption 4) -/

/-- Whether a row applies in a phase, for an AC copy. -/
def DeviceGuard.holds (g : DeviceGuard) (phase : Nat) (ac : Word) : Bool :=
  (match g.phase with
    | some p => decide (p = phase)
    | none => true) && decide (ac &&& g.acMask = g.acBits)

/-- `select`: the first row of this selector that applies, with the AC of the selection, claims; with no row the device
does not claim and stays as it is (43_iot R192). -/
def TableDevice.select (sel : Selector) (ac : Word) (t : TableDevice) : Option TableDevice :=
  match t.selectRows.find? fun r => decide (r.sel = sel) && r.guard.holds t.phase ac with
  | some r => some { t with ac := ac, phase := r.next.getD t.phase }
  | none => none

/-- `get`: no side effect (43_iot R192); 0 when no row applies. -/
def TableDevice.get (t : TableDevice) : Word :=
  match t.getRows.find? fun r => r.guard.holds t.phase t.ac with
  | some r => r.value ||| (t.ac &&& r.echo)
  | none => 0

/-- The table of each stage. -/
def TableDevice.stageRows (t : TableDevice) : Pulse → List StageRow
  | .iop1 => t.iop1Rows
  | .iop2 => t.iop2Rows
  | .iop4 => t.iop4Rows

/-- A stage: it sees the phase and the AC copy; no signal and no change when no row applies. -/
def TableDevice.stage (k : Pulse) (t : TableDevice) : StageResult × TableDevice :=
  match (t.stageRows k).find? fun r => r.guard.holds t.phase t.ac with
  | some r => (r.answer, { t with phase := r.next.getD t.phase })
  | none => (.signals {}, t)

/-- `select` of an other device: none when it does not claim, which leaves it as it is (43_iot R192). -/
def OtherDevice.select (sel : Selector) (ac : Word) : OtherDevice → Option OtherDevice
  | .table t => (t.select sel ac).map .table
  | .uninterpreted d memory => (Config.deviceSelect d memory sel ac).map (.uninterpreted d)

/-- `get` of an other device. -/
def OtherDevice.get : OtherDevice → Word
  | .table t => t.get
  | .uninterpreted d memory => Config.deviceGet d memory

/-- A stage of an other device. -/
def OtherDevice.stage (k : Pulse) : OtherDevice → StageResult × OtherDevice
  | .table t => ((t.stage k).1, .table (t.stage k).2)
  | .uninterpreted d memory =>
    ((Config.deviceStage d memory k).1, .uninterpreted d (Config.deviceStage d memory k).2)

end Sys2Proof.Machine
end

