-- ==== Sys2Proof/Machine/Bus.lean ====
section
/-! DEFINITION. The device bus: arbitration, stages, signals (43_iot R190 to R200). -/

namespace Sys2Proof.Machine

/-- `select` of an entry of the device list: the state with the device's own state changed, or none when the device
does not claim the selector (43_iot R191, R192). -/
def Device.select (sel : Selector) (ac : Word) (s : State) : Device → Option State
  | .tty => (s.tty.select sel ac).map s.setTty
  | .tape => (s.tape.select sel ac).map s.setTape
  | .other n => (s.others[n]? >>= OtherDevice.select sel ac).map fun x => s.setOthers (s.others.set n x)

/-- Arbitration: the first device of the list that claims the selector, with its selection done; devices after it are
not asked (43_iot R193). -/
def arbitrate (sel : Selector) (s : State) : List Device → Option (Device × State)
  | [] => none
  | d :: rest =>
    match d.select sel s.ac s with
    | some t => some (d, t)
    | none => arbitrate sel s rest

/-- The device that claims a selector in a state, if any. -/
def claimant (sel : Selector) (s : State) : Option Device := (arbitrate sel s s.devices).map Prod.fst

/-- `get` of a device (43_iot R191): no side effect. -/
def Device.get (s : State) : Device → Word
  | .tty => s.tty.get
  | .tape => s.tape.get
  | .other n => match s.others[n]? with
    | some x => x.get
    | none => 0

/-- One stage call on a device (43_iot R191): its answer, and the state with the device and the environment changed. -/
def Device.stage (k : Pulse) (s : State) : Device → StageResult × State
  | .tty =>
    let r := s.tty.stage k s.env
    (r.1, (s.setTty r.2.1).setEnv r.2.2)
  | .tape =>
    let r := s.tape.stage k s.env
    (r.1, (s.setTape r.2.1).setEnv r.2.2)
  | .other n => match s.others[n]? with
    | some x => ((x.stage k).1, s.setOthers (s.others.set n (x.stage k).2))
    | none => (.signals {}, s)

/-- The signals of a stage, in the order skip, clear, or-input (43_iot R195). -/
def applySignals (d : Device) (g : Signals) (s : State) : State :=
  let s := s.skipIf g.skip
  let s := if g.clear then s.setAc 0 else s
  if g.orInput then s.setAc (s.ac ||| d.get s) else s

/-- The stages of the asserted pulses; a failing stage raises DeviceIO and ends the instruction (43_iot R194, R198). -/
def runPulses (d : Device) : List Pulse → State → State
  | [], s => s
  | k :: later, s =>
    match d.stage k s with
    | (.signals g, t) => runPulses d later (applySignals d g t)
    | (.ioError, t) => t.raise .deviceIO

/-- The asserted pulses in the order IOP1, IOP2, IOP4 (43_iot R194). -/
def assertedPulses (p : Pulses) : List Pulse :=
  (if p.iop1 then [.iop1] else []) ++ (if p.iop2 then [.iop2] else []) ++ (if p.iop4 then [.iop4] else [])

/-- Execute of an IOT: arbitration, then the stages; with no claimant nothing happens (43_iot R190, R193, R196). -/
def busTransfer (sel : Selector) (p : Pulses) (s : State) : State :=
  match arbitrate sel s s.devices with
  | some (d, t) => runPulses d (assertedPulses p) t
  | none => s

end Sys2Proof.Machine
end

