-- ==== Sys2Proof/Machine/Iot.lean ====
section
/-! DEFINITION. The I/O-transfer instructions (43_iot R190, R196; 45_devices R256 to R281; 30_encoding R99). Each is
the bus operation on its selector and pulses, so that it means what the attached devices make of it. -/

namespace Sys2Proof.Machine

/-- IOT on a selector of no reference device (43_iot R190). -/
def execIot (sel : Selector) (p : Pulses) (s : State) : Result := .next (busTransfer sel p s)

/-- IOT on selector 0o00, which no reference device claims (43_iot R196, 30_encoding R103). -/
def execIotUnclaimedSelector (p : Pulses) (s : State) : Result := .next (busTransfer 0o00 p s)

/-- RSF (45_devices R273). -/
def execRsf (s : State) : Result := .next (busTransfer 0o01 { iop1 := true } s)

/-- RRB (45_devices R274). -/
def execRrb (s : State) : Result := .next (busTransfer 0o01 { iop2 := true } s)

/-- RFC (45_devices R275). -/
def execRfc (s : State) : Result := .next (busTransfer 0o01 { iop4 := true } s)

/-- RRB RFC (45_devices R276). -/
def execRrbRfc (s : State) : Result := .next (busTransfer 0o01 { iop4 := true, iop2 := true } s)

/-- The other pulse sets on the reader's selector (45_devices R281). -/
def execIotReaderOtherPulseSets (p : Pulses) (s : State) : Result := .next (busTransfer 0o01 p s)

/-- PSF (45_devices R277). -/
def execPsf (s : State) : Result := .next (busTransfer 0o02 { iop1 := true } s)

/-- PCF (45_devices R278). -/
def execPcf (s : State) : Result := .next (busTransfer 0o02 { iop2 := true } s)

/-- PPC (45_devices R279). -/
def execPpc (s : State) : Result := .next (busTransfer 0o02 { iop4 := true } s)

/-- PLS (45_devices R280). -/
def execPls (s : State) : Result := .next (busTransfer 0o02 { iop4 := true, iop2 := true } s)

/-- The other pulse sets on the punch's selector (45_devices R281). -/
def execIotPunchOtherPulseSets (p : Pulses) (s : State) : Result := .next (busTransfer 0o02 p s)

/-- KSF (45_devices R256). -/
def execKsf (s : State) : Result := .next (busTransfer 0o03 { iop1 := true } s)

/-- KCC (45_devices R257). -/
def execKcc (s : State) : Result := .next (busTransfer 0o03 { iop2 := true } s)

/-- KRS (45_devices R258). -/
def execKrs (s : State) : Result := .next (busTransfer 0o03 { iop4 := true } s)

/-- KRB (45_devices R259). -/
def execKrb (s : State) : Result := .next (busTransfer 0o03 { iop4 := true, iop2 := true } s)

/-- The other pulse sets on the keyboard's selector (45_devices R260). -/
def execIotKeyboardOtherPulseSets (p : Pulses) (s : State) : Result := .next (busTransfer 0o03 p s)

/-- TSF (45_devices R261). -/
def execTsf (s : State) : Result := .next (busTransfer 0o04 { iop1 := true } s)

/-- TCF (45_devices R262). -/
def execTcf (s : State) : Result := .next (busTransfer 0o04 { iop2 := true } s)

/-- TPC (45_devices R263). -/
def execTpc (s : State) : Result := .next (busTransfer 0o04 { iop4 := true } s)

/-- TLS (45_devices R264). -/
def execTls (s : State) : Result := .next (busTransfer 0o04 { iop4 := true, iop2 := true } s)

/-- The other pulse sets on the printer's selector (45_devices R265). -/
def execIotPrinterOtherPulseSets (p : Pulses) (s : State) : Result := .next (busTransfer 0o04 p s)

end Sys2Proof.Machine
end

