-- ==== Sys2Proof/Machine/Flags.lean ====
section
/-! DEFINITION. The Word/Arithmetic Unit (40_alu R120 to R127) and the group 2 conditions (44_operate R225). -/

namespace Sys2Proof.Machine

/-- `add` (40_alu R120): the exact signed sum, narrowed to 12 bits; the carry says that it fell outside -2048..2047. -/
def Alu.add (a b : Word) : Word × Bool :=
  let t := a.toInt + b.toInt
  (BitVec.ofInt 12 t, decide (t < -2048) || decide (2047 < t))

/-- `complement` (40_alu R122). -/
def Alu.complement (a : Word) : Word := a ^^^ 0o7777#12

/-- `rotate_right` (40_alu R123): the link enters bit 11, bit 0 becomes the link. -/
def Alu.rotateRight (x : Word × Bool) : Word × Bool :=
  ((if x.2 then 0o4000#12 else 0#12) ||| (x.1 >>> 1), x.1.getLsbD 0)

/-- `rotate_left` (40_alu R124): the link enters bit 0, bit 11 becomes the link. -/
def Alu.rotateLeft (x : Word × Bool) : Word × Bool :=
  ((x.1 <<< 1) ||| (if x.2 then 1#12 else 0#12), x.1.getLsbD 11)

/-- A rotate applied once, or twice when bit 1 is set (44_operate R211, R219, R220). -/
def Alu.times (twice : Bool) (rotate : Word × Bool → Word × Bool) (x : Word × Bool) : Word × Bool :=
  if twice then rotate (rotate x) else rotate x

/-- SMA's condition (44_operate R227). -/
def Alu.minus (ac : Word) : Bool := ac.getLsbD 11

/-- SZA's condition (44_operate R228). -/
def Alu.zero (ac : Word) : Bool := ac = 0

/-- Some selected condition holds (44_operate R225). -/
def group2AnyHolds (g : Group2) (ac : Word) (link : Bool) : Bool :=
  (g.sma && Alu.minus ac) || (g.sza && Alu.zero ac) || (g.snl && link)

/-- Whether group 2 skips: OR of the selected conditions, NOR with the sense bit (44_operate R225, R230). -/
def group2Takes (g : Group2) (ac : Word) (link : Bool) : Bool :=
  if g.sense then !group2AnyHolds g ac link else group2AnyHolds g ac link

end Sys2Proof.Machine
end

