-- ==== Sys2Proof/Machine/Operands.lean ====
section
/-! DEFINITION. Operands of the memory-reference instructions: fetch steps 4 and 5 (41_cycle R155 to R160). They run
after fetch steps 1 to 3, so MB holds the instruction's own address (41_cycle R152). -/

namespace Sys2Proof.Machine

/-- The page bits: the page of the instruction's own address, or page 0 (41_cycle R156). -/
def pageBase (m : Mri) (s : State) : Word := if m.page then s.mb &&& 0o7600#12 else 0

/-- EA0, the address before indirection (41_cycle R157). -/
def directAddress (m : Mri) (s : State) : Word := pageBase m s ||| m.offset.setWidth 12

/-- The autoincrement cells 0o10 to 0o17 (41_cycle R158). -/
def isAutoincrement (a : Word) : Bool := decide (0o10 ≤ a.toNat) && decide (a.toNat ≤ 0o17)

/-- Whether the instruction increments its pointer cell: indirect through an autoincrement cell (41_cycle R158). -/
def autoincrements (m : Mri) (s : State) : Bool := m.indirect && isAutoincrement (directAddress m s)

/-- The increment of the pointer cell, before it is read; the carry is discarded (41_cycle R158). -/
def incrementPointer (m : Mri) (s : State) : State :=
  if autoincrements m s then
    s.writeMem (directAddress m s) (Alu.add (s.readMem (directAddress m s)) 1).1
  else s

/-- EA, the effective address, in the state after the increment (41_cycle R158). -/
def effectiveAddress (m : Mri) (s : State) : Word :=
  if m.indirect then (incrementPointer m s).readMem (directAddress m s) else directAddress m s

/-- Step 4: the increment, and `MA <- EA` (41_cycle R155 to R159). -/
def formAddress (m : Mri) (s : State) : State := (incrementPointer m s).setMa (effectiveAddress m s)

/-- Steps 4 and 5 for an instruction with an operand: `MB <- MEM[MA]` (41_cycle R160). -/
def fetchOperand (m : Mri) (s : State) : State :=
  let t := formAddress m s
  t.setMb (t.readMem t.ma)

end Sys2Proof.Machine
end

