-- ==== Sys2Proof/Machine/MemoryReference.lean ====
section
/-! DEFINITION. The memory-reference instructions (42_memory_reference R170 to R175), from fetch step 4 on. -/

namespace Sys2Proof.Machine

/-- AND (R170). -/
def execAnd (m : Mri) (s : State) : Result :=
  let t := fetchOperand m s
  .next (t.setAc (t.ac &&& t.mb))

/-- TAD (R171): L is assigned the carry of `add`. -/
def execTad (m : Mri) (s : State) : Result :=
  let t := fetchOperand m s
  let r := Alu.add t.ac t.mb
  .next ((t.setAc r.1).setLink r.2)

/-- ISZ (R172). -/
def execIsz (m : Mri) (s : State) : Result :=
  let t := fetchOperand m s
  let v := (Alu.add t.mb 1).1
  .next (((t.setMb v).writeMem t.ma v).skipIf (v = 0))

/-- DCA (R173). -/
def execDca (m : Mri) (s : State) : Result :=
  let t := formAddress m s
  .next ((t.writeMem t.ma t.ac).setAc 0)

/-- JMS (R174): the return address is PC, already past the JMS. -/
def execJms (m : Mri) (s : State) : Result :=
  let t := formAddress m s
  .next ((t.writeMem t.ma t.pc).setPc (t.ma + 1))

/-- JMP (R175). -/
def execJmp (m : Mri) (s : State) : Result :=
  let t := formAddress m s
  .next (t.setPc t.ma)

end Sys2Proof.Machine
end

