-- ==== Sys2Proof/WellFormed.lean ====
section
/-! DEFINITION. When an instruction of the syntax stands for a word of its own row: an operand that belongs to a more
specific row of spec/opcode_table.json is ill formed in the general one (assumption 10). -/

namespace Sys2Proof

/-- Exactly one pulse, or IOP2 and IOP4: the pulse sets 1, 2, 4 and 6, which have words of their own on the reference
selectors (30_encoding R99). -/
def Pulses.named (p : Pulses) : Bool :=
  p = { iop1 := true } || p = { iop2 := true } || p = { iop4 := true } || p = { iop4 := true, iop2 := true }

/-- The bits of a group 1 word that has a mnemonic of its own (30_encoding R97). -/
def Group1.single (g : Group1) : Bool :=
  g = {} || g = { cla := true } || g = { cll := true } || g = { cma := true } || g = { cml := true }
    || g = { iac := true } || g = { rar := true } || g = { ral := true }
    || g = { rar := true, twice := true } || g = { ral := true, twice := true }

/-- Bit 1 set with no rotate selected (44_operate R221). -/
def Group1.bit1Alone (g : Group1) : Bool := g.twice && !g.rar && !g.ral

/-- Both rotate directions selected (44_operate R223). -/
def Group1.bothRotates (g : Group1) : Bool := g.rar && g.ral

/-- The bits of a group 2 word that has a mnemonic of its own (30_encoding R98). -/
def Group2.single (g : Group2) : Bool :=
  g = {} || g = { cla := true } || g = { sma := true } || g = { sza := true } || g = { snl := true }
    || g = { sma := true, sense := true } || g = { sza := true, sense := true } || g = { snl := true, sense := true }
    || g = { sense := true } || g = { osr := true } || g = { hlt := true }

/-- The instruction is the one its word decodes to. -/
def WellFormed : Instr → Bool
  | .iot sel _ => decide (4 < sel.toNat)
  | .opr1 g => !g.single && !g.bit1Alone && !g.bothRotates
  | .opr2 g => !g.single
  | .iotReaderOtherPulseSets p => !p.named
  | .iotPunchOtherPulseSets p => !p.named
  | .iotKeyboardOtherPulseSets p => !p.named
  | .iotPrinterOtherPulseSets p => !p.named
  | .and _ | .tad _ | .isz _ | .dca _ | .jms _ | .jmp _ | .opr3 _ => true
  | .nop | .cla | .cll | .cma | .cml | .iac | .rar | .ral | .rtr | .rtl => true
  | .opr1Bit1Alone _ | .opr1BothRotates _ _ => true
  | .nopGroup2 | .claGroup2 | .sma | .sza | .snl | .spa | .sna | .szl | .skp | .osr | .hlt => true
  | .rsf | .rrb | .rfc | .rrbRfc | .psf | .pcf | .ppc | .pls => true
  | .ksf | .kcc | .krs | .krb | .tsf | .tcf | .tpc | .tls => true
  | .iotUnclaimedSelector _ => true

end Sys2Proof
end

