-- ==== Sys2Proof/Decode.lean ====
section
/-! DEFINITION. Decoding and encoding (30_encoding R90 to R103). The decoder is total on the 4096 words; it reads
fields once and turns them into constructors. The encoder writes the words of spec/opcode_table.json. -/

namespace Sys2Proof

/-- Why a number is not decoded. -/
inductive DecodeError where
  /-- It does not fit in a 12-bit word (30_encoding R90). -/
  | tooWide
  /-- The opcode fits no class: the default arm, unreachable for a word (30_encoding R101). -/
  | invalidOperation
  deriving DecidableEq, Repr

/-! ### Fields -/

/-- I, P and offset of a memory-reference word (30_encoding R91). -/
def Mri.ofWord (w : Word) : Mri := ⟨w.getLsbD 8, w.getLsbD 7, w.extractLsb' 0 7⟩

/-- The low nine bits of a memory-reference word. -/
def Mri.bits (m : Mri) : BitVec 9 := BitVec.ofBool m.indirect ++ BitVec.ofBool m.page ++ m.offset

/-- The pulse bits of an IOT word: IOP1 = bit 0, IOP2 = bit 1, IOP4 = bit 2 (30_encoding R95). -/
def Pulses.ofWord (w : Word) : Pulses := ⟨w.getLsbD 2, w.getLsbD 1, w.getLsbD 0⟩

/-- The low three bits of an IOT word. -/
def Pulses.bits (p : Pulses) : BitVec 3 := BitVec.ofBool p.iop4 ++ BitVec.ofBool p.iop2 ++ BitVec.ofBool p.iop1

/-- The selector of an IOT word, bits 8 to 3 (30_encoding R95). -/
def selectorOf (w : Word) : Selector := w.extractLsb' 3 6

/-- The group 1 micro-operation bits (30_encoding R97). -/
def Group1.ofWord (w : Word) : Group1 :=
  ⟨w.getLsbD 7, w.getLsbD 6, w.getLsbD 5, w.getLsbD 4, w.getLsbD 3, w.getLsbD 2, w.getLsbD 1, w.getLsbD 0⟩

/-- The low eight bits of a group 1 word. -/
def Group1.bits (g : Group1) : BitVec 8 :=
  BitVec.ofBool g.cla ++ BitVec.ofBool g.cll ++ BitVec.ofBool g.cma ++ BitVec.ofBool g.cml
    ++ BitVec.ofBool g.rar ++ BitVec.ofBool g.ral ++ BitVec.ofBool g.twice ++ BitVec.ofBool g.iac

/-- The group 2 micro-operation bits (30_encoding R98). -/
def Group2.ofWord (w : Word) : Group2 :=
  ⟨w.getLsbD 7, w.getLsbD 6, w.getLsbD 5, w.getLsbD 4, w.getLsbD 3, w.getLsbD 2, w.getLsbD 1⟩

/-- Bits 7 to 1 of a group 2 word. -/
def Group2.bits (g : Group2) : BitVec 7 :=
  BitVec.ofBool g.cla ++ BitVec.ofBool g.sma ++ BitVec.ofBool g.sza ++ BitVec.ofBool g.snl
    ++ BitVec.ofBool g.sense ++ BitVec.ofBool g.osr ++ BitVec.ofBool g.hlt

/-- The bits of a group 1 word that select no rotate. -/
def Group1.plain (g : Group1) : Group1Plain := ⟨g.cla, g.cll, g.cma, g.cml, g.iac⟩

/-- A group 1 word from its plain bits and its three rotate bits. -/
def Group1Plain.withRotate (q : Group1Plain) (rar ral twice : Bool) : Group1 :=
  ⟨q.cla, q.cll, q.cma, q.cml, rar, ral, twice, q.iac⟩

/-! ### Decode -/

/-- The group 1 words that have a mnemonic (30_encoding R97). -/
def Decode.group1Names : List (Group1 × Instr) :=
  [({}, .nop), ({ cla := true }, .cla), ({ cll := true }, .cll), ({ cma := true }, .cma), ({ cml := true }, .cml),
   ({ iac := true }, .iac), ({ rar := true }, .rar), ({ ral := true }, .ral),
   ({ rar := true, twice := true }, .rtr), ({ ral := true, twice := true }, .rtl)]

/-- The group 2 words that have a mnemonic (30_encoding R98). -/
def Decode.group2Names : List (Group2 × Instr) :=
  [({}, .nopGroup2), ({ cla := true }, .claGroup2), ({ sma := true }, .sma), ({ sza := true }, .sza),
   ({ snl := true }, .snl), ({ sma := true, sense := true }, .spa), ({ sza := true, sense := true }, .sna),
   ({ snl := true, sense := true }, .szl), ({ sense := true }, .skp), ({ osr := true }, .osr), ({ hlt := true }, .hlt)]

/-- Group 1 (44_operate R211), most specific row first. -/
def Decode.group1 (g : Group1) : Instr :=
  match Decode.group1Names.lookup g with
  | some i => i
  | none =>
    if g.bothRotates then .opr1BothRotates g.plain g.twice
    else if g.bit1Alone then .opr1Bit1Alone g.plain
    else .opr1 g

/-- Group 2 (44_operate R225), most specific row first. -/
def Decode.group2 (g : Group2) : Instr :=
  match Decode.group2Names.lookup g with
  | some i => i
  | none => .opr2 g

/-- Operate: `IR[8]` and `IR[0]` select the group (30_encoding R96). -/
def Decode.operate (w : Word) : Instr :=
  if !w.getLsbD 8 then Decode.group1 (Group1.ofWord w)
  else if !w.getLsbD 0 then Decode.group2 (Group2.ofWord w)
  else .opr3 (w.extractLsb' 1 7)

/-- The words of one reference selector: the pulse sets 1, 2, 4 and 6 have names, the others are one row
(30_encoding R99). -/
def Decode.deviceWord (skipWord clearWord transferWord bothWord : Instr) (others : Pulses → Instr) (p : Pulses) : Instr :=
  if p = { iop1 := true } then skipWord
  else if p = { iop2 := true } then clearWord
  else if p = { iop4 := true } then transferWord
  else if p = { iop4 := true, iop2 := true } then bothWord
  else others p

/-- I/O transfer: selectors 0o01 to 0o04 are the reference devices' (30_encoding R99), 0o00 is the unclaimed one
(30_encoding R103), the rest are free for other devices. -/
def Decode.transfer (sel : Selector) (p : Pulses) : Instr :=
  match sel.toNat with
  | 0 => .iotUnclaimedSelector p
  | 1 => Decode.deviceWord .rsf .rrb .rfc .rrbRfc .iotReaderOtherPulseSets p
  | 2 => Decode.deviceWord .psf .pcf .ppc .pls .iotPunchOtherPulseSets p
  | 3 => Decode.deviceWord .ksf .kcc .krs .krb .iotKeyboardOtherPulseSets p
  | 4 => Decode.deviceWord .tsf .tcf .tpc .tls .iotPrinterOtherPulseSets p
  | _ => .iot sel p

/-- Decoding of a word: the opcode is `IR[11:9]` (30_encoding R91, R92; 41_cycle R161). -/
def decodeWord (w : Word) : Except DecodeError Instr :=
  match (w.extractLsb' 9 3).toNat with
  | 0 => .ok (.and (Mri.ofWord w))
  | 1 => .ok (.tad (Mri.ofWord w))
  | 2 => .ok (.isz (Mri.ofWord w))
  | 3 => .ok (.dca (Mri.ofWord w))
  | 4 => .ok (.jms (Mri.ofWord w))
  | 5 => .ok (.jmp (Mri.ofWord w))
  | 6 => .ok (Decode.transfer (selectorOf w) (Pulses.ofWord w))
  | 7 => .ok (Decode.operate w)
  | _ => .error .invalidOperation

/-- Decoding of any number: a word has 12 bits and nothing longer is an instruction (30_encoding R90). -/
def decodeBits (n : Nat) : Except DecodeError Instr :=
  if n < 4096 then decodeWord (BitVec.ofNat 12 n) else .error .tooWide

/-- The host's view of the decoder: the bits of the one instruction word, bit 0 least significant. Every instruction
is one word, so the length the table gives adds nothing. -/
def decodeTableWord (_nbits w : Nat) : Option Instr :=
  match decodeBits w with
  | .ok i => some i
  | .error _ => none

/-! ### Encode -/

/-- The word of an instruction, from the rows of spec/opcode_table.json. -/
def encode : Instr → Word
  | .and m => 0#3 ++ m.bits
  | .tad m => 1#3 ++ m.bits
  | .isz m => 2#3 ++ m.bits
  | .dca m => 3#3 ++ m.bits
  | .jms m => 4#3 ++ m.bits
  | .jmp m => 5#3 ++ m.bits
  | .iot sel p => 6#3 ++ sel ++ p.bits
  | .opr1 g => 0b1110#4 ++ g.bits
  | .opr2 g => 0b1111#4 ++ g.bits ++ 0#1
  | .opr3 b => 0b1111#4 ++ b ++ 1#1
  | .nop => 0o7000#12
  | .cla => 0o7200#12
  | .cll => 0o7100#12
  | .cma => 0o7040#12
  | .cml => 0o7020#12
  | .iac => 0o7001#12
  | .rar => 0o7010#12
  | .ral => 0o7004#12
  | .rtr => 0o7012#12
  | .rtl => 0o7006#12
  | .opr1Bit1Alone q => 0b1110#4 ++ (q.withRotate false false true).bits
  | .opr1BothRotates q twice => 0b1110#4 ++ (q.withRotate true true twice).bits
  | .nopGroup2 => 0o7400#12
  | .claGroup2 => 0o7600#12
  | .sma => 0o7500#12
  | .sza => 0o7440#12
  | .snl => 0o7420#12
  | .spa => 0o7510#12
  | .sna => 0o7450#12
  | .szl => 0o7430#12
  | .skp => 0o7410#12
  | .osr => 0o7404#12
  | .hlt => 0o7402#12
  | .rsf => 0o6011#12
  | .rrb => 0o6012#12
  | .rfc => 0o6014#12
  | .rrbRfc => 0o6016#12
  | .psf => 0o6021#12
  | .pcf => 0o6022#12
  | .ppc => 0o6024#12
  | .pls => 0o6026#12
  | .ksf => 0o6031#12
  | .kcc => 0o6032#12
  | .krs => 0o6034#12
  | .krb => 0o6036#12
  | .tsf => 0o6041#12
  | .tcf => 0o6042#12
  | .tpc => 0o6044#12
  | .tls => 0o6046#12
  | .iotReaderOtherPulseSets p => 0o601#9 ++ p.bits
  | .iotPunchOtherPulseSets p => 0o602#9 ++ p.bits
  | .iotKeyboardOtherPulseSets p => 0o603#9 ++ p.bits
  | .iotPrinterOtherPulseSets p => 0o604#9 ++ p.bits
  | .iotUnclaimedSelector p => 0o600#9 ++ p.bits

/-! ### The rows of the opcode table -/

/-- A row of spec/opcode_table.json: a word w is the row's when `w &&& mask = pattern` (30_encoding R93). -/
structure Row where
  mask : Word
  pattern : Word
  deriving DecidableEq, Repr

/-- The word is one of the row's. -/
def Row.covers (r : Row) (w : Word) : Bool := w &&& r.mask = r.pattern

/-- The ten primary rows, AND first (30_encoding R93). -/
def primaryRows : List Row :=
  [⟨0o7000, 0o0000⟩, ⟨0o7000, 0o1000⟩, ⟨0o7000, 0o2000⟩, ⟨0o7000, 0o3000⟩, ⟨0o7000, 0o4000⟩, ⟨0o7000, 0o5000⟩,
   ⟨0o7000, 0o6000⟩, ⟨0o7400, 0o7000⟩, ⟨0o7401, 0o7400⟩, ⟨0o7401, 0o7401⟩]

/-- The opcode table's row of an instruction: mask and match as spec/opcode_table.json gives them in octal. -/
def rowOf : Instr → Row
  | .and _ => ⟨0o7000, 0o0000⟩
  | .tad _ => ⟨0o7000, 0o1000⟩
  | .isz _ => ⟨0o7000, 0o2000⟩
  | .dca _ => ⟨0o7000, 0o3000⟩
  | .jms _ => ⟨0o7000, 0o4000⟩
  | .jmp _ => ⟨0o7000, 0o5000⟩
  | .iot _ _ => ⟨0o7000, 0o6000⟩
  | .opr1 _ => ⟨0o7400, 0o7000⟩
  | .opr2 _ => ⟨0o7401, 0o7400⟩
  | .opr3 _ => ⟨0o7401, 0o7401⟩
  | .nop => ⟨0o7777, 0o7000⟩
  | .cla => ⟨0o7777, 0o7200⟩
  | .cll => ⟨0o7777, 0o7100⟩
  | .cma => ⟨0o7777, 0o7040⟩
  | .cml => ⟨0o7777, 0o7020⟩
  | .iac => ⟨0o7777, 0o7001⟩
  | .rar => ⟨0o7777, 0o7010⟩
  | .ral => ⟨0o7777, 0o7004⟩
  | .rtr => ⟨0o7777, 0o7012⟩
  | .rtl => ⟨0o7777, 0o7006⟩
  | .opr1Bit1Alone _ => ⟨0o7416, 0o7002⟩
  | .opr1BothRotates _ _ => ⟨0o7414, 0o7014⟩
  | .nopGroup2 => ⟨0o7777, 0o7400⟩
  | .claGroup2 => ⟨0o7777, 0o7600⟩
  | .sma => ⟨0o7777, 0o7500⟩
  | .sza => ⟨0o7777, 0o7440⟩
  | .snl => ⟨0o7777, 0o7420⟩
  | .spa => ⟨0o7777, 0o7510⟩
  | .sna => ⟨0o7777, 0o7450⟩
  | .szl => ⟨0o7777, 0o7430⟩
  | .skp => ⟨0o7777, 0o7410⟩
  | .osr => ⟨0o7777, 0o7404⟩
  | .hlt => ⟨0o7777, 0o7402⟩
  | .rsf => ⟨0o7777, 0o6011⟩
  | .rrb => ⟨0o7777, 0o6012⟩
  | .rfc => ⟨0o7777, 0o6014⟩
  | .rrbRfc => ⟨0o7777, 0o6016⟩
  | .psf => ⟨0o7777, 0o6021⟩
  | .pcf => ⟨0o7777, 0o6022⟩
  | .ppc => ⟨0o7777, 0o6024⟩
  | .pls => ⟨0o7777, 0o6026⟩
  | .ksf => ⟨0o7777, 0o6031⟩
  | .kcc => ⟨0o7777, 0o6032⟩
  | .krs => ⟨0o7777, 0o6034⟩
  | .krb => ⟨0o7777, 0o6036⟩
  | .tsf => ⟨0o7777, 0o6041⟩
  | .tcf => ⟨0o7777, 0o6042⟩
  | .tpc => ⟨0o7777, 0o6044⟩
  | .tls => ⟨0o7777, 0o6046⟩
  | .iotReaderOtherPulseSets _ => ⟨0o7770, 0o6010⟩
  | .iotPunchOtherPulseSets _ => ⟨0o7770, 0o6020⟩
  | .iotKeyboardOtherPulseSets _ => ⟨0o7770, 0o6030⟩
  | .iotPrinterOtherPulseSets _ => ⟨0o7770, 0o6040⟩
  | .iotUnclaimedSelector _ => ⟨0o7000, 0o6000⟩

end Sys2Proof
end

