-- ==== Sys2Proof/Machine/Operate.lean ====
section
/-! DEFINITION. The operate instructions (44_operate R210 to R237). -/

namespace Sys2Proof.Machine

/-! ### Group 1 -/

/-- The group 1 sequence on (AC, L): CLA, CLL, CMA, CML, IAC, then the rotates (44_operate R211). -/
def group1Apply (g : Group1) (x : Word × Bool) : Word × Bool :=
  let x := if g.cla then (0, x.2) else x
  let x := if g.cll then (x.1, false) else x
  let x := if g.cma then (Alu.complement x.1, x.2) else x
  let x := if g.cml then (x.1, !x.2) else x
  let x := if g.iac then Alu.add x.1 1 else x
  let x := if g.rar then Alu.times g.twice Alu.rotateRight x else x
  if g.ral then Alu.times g.twice Alu.rotateLeft x else x

/-- A group 1 instruction: AC and L, nothing else (44_operate R211). -/
def runGroup1 (g : Group1) (s : State) : State :=
  let r := group1Apply g (s.ac, s.link)
  (s.setAc r.1).setLink r.2

/-- OPR group 1, any other combination (R211, R224). -/
def execOpr1 (g : Group1) (s : State) : Result := .next (runGroup1 g s)

/-- NOP (R222). -/
def execNop (s : State) : Result := .next (runGroup1 {} s)

/-- CLA (R212). -/
def execCla (s : State) : Result := .next (runGroup1 { cla := true } s)

/-- CLL (R213). -/
def execCll (s : State) : Result := .next (runGroup1 { cll := true } s)

/-- CMA (R214). -/
def execCma (s : State) : Result := .next (runGroup1 { cma := true } s)

/-- CML (R215). -/
def execCml (s : State) : Result := .next (runGroup1 { cml := true } s)

/-- IAC (R216). -/
def execIac (s : State) : Result := .next (runGroup1 { iac := true } s)

/-- RAR (R217). -/
def execRar (s : State) : Result := .next (runGroup1 { rar := true } s)

/-- RAL (R218). -/
def execRal (s : State) : Result := .next (runGroup1 { ral := true } s)

/-- RTR (R219). -/
def execRtr (s : State) : Result := .next (runGroup1 { rar := true, twice := true } s)

/-- RTL (R220). -/
def execRtl (s : State) : Result := .next (runGroup1 { ral := true, twice := true } s)

/-- Bit 1 with no rotate selected (R221). -/
def execOpr1Bit1Alone (q : Group1Plain) (s : State) : Result := .next (runGroup1 (q.withRotate false false true) s)

/-- Both rotate directions (R223). -/
def execOpr1BothRotates (q : Group1Plain) (twice : Bool) (s : State) : Result :=
  .next (runGroup1 (q.withRotate true true twice) s)

/-! ### Group 2 -/

/-- A group 2 instruction: CLA, tests and skip, OSR, HLT (44_operate R225). -/
def runGroup2 (g : Group2) (s : State) : State :=
  let s := if g.cla then s.setAc 0 else s
  let s := s.skipIf (group2Takes g s.ac s.link)
  let s := if g.osr then s.setAc (s.ac ||| s.sr) else s
  if g.hlt then s.setHalt true else s

/-- OPR group 2, any other combination (R225, R235). -/
def execOpr2 (g : Group2) (s : State) : Result := .next (runGroup2 g s)

/-- NOP of group 2 (R234). -/
def execNopGroup2 (s : State) : Result := .next (runGroup2 {} s)

/-- CLA of group 2 (R226). -/
def execClaGroup2 (s : State) : Result := .next (runGroup2 { cla := true } s)

/-- SMA (R227). -/
def execSma (s : State) : Result := .next (runGroup2 { sma := true } s)

/-- SZA (R228). -/
def execSza (s : State) : Result := .next (runGroup2 { sza := true } s)

/-- SNL (R229). -/
def execSnl (s : State) : Result := .next (runGroup2 { snl := true } s)

/-- SPA (R230). -/
def execSpa (s : State) : Result := .next (runGroup2 { sma := true, sense := true } s)

/-- SNA (R230). -/
def execSna (s : State) : Result := .next (runGroup2 { sza := true, sense := true } s)

/-- SZL (R230). -/
def execSzl (s : State) : Result := .next (runGroup2 { snl := true, sense := true } s)

/-- SKP (R231). -/
def execSkp (s : State) : Result := .next (runGroup2 { sense := true } s)

/-- OSR (R232). -/
def execOsr (s : State) : Result := .next (runGroup2 { osr := true } s)

/-- HLT (R233): the halt itself is run control's, in the next cycle (41_cycle R145). -/
def execHlt (s : State) : Result := .next (runGroup2 { hlt := true } s)

/-! ### Group 3 -/

/-- Group 3: raises UnimplementedOperation whatever bits 7 to 1 hold (R236). -/
def execOpr3 (_bits : BitVec 7) (s : State) : Result := .next (s.raise .unimplementedOperation)

end Sys2Proof.Machine
end

