-- ==== Sys2Proof/Machine/Dispatch.lean ====
section
/-! DEFINITION. Execute: one arm per instruction (41_cycle R161). -/

namespace Sys2Proof.Machine

def exec (i : Instr) (s : State) : Host.Outcome State Fault Refusal :=
  match i with
  | .and m => Sys2Proof.Machine.execAnd m s
  | .tad m => Sys2Proof.Machine.execTad m s
  | .isz m => Sys2Proof.Machine.execIsz m s
  | .dca m => Sys2Proof.Machine.execDca m s
  | .jms m => Sys2Proof.Machine.execJms m s
  | .jmp m => Sys2Proof.Machine.execJmp m s
  | .iot sel p => Sys2Proof.Machine.execIot sel p s
  | .opr1 g => Sys2Proof.Machine.execOpr1 g s
  | .opr2 g => Sys2Proof.Machine.execOpr2 g s
  | .opr3 bits => Sys2Proof.Machine.execOpr3 bits s
  | .nop => Sys2Proof.Machine.execNop s
  | .cla => Sys2Proof.Machine.execCla s
  | .cll => Sys2Proof.Machine.execCll s
  | .cma => Sys2Proof.Machine.execCma s
  | .cml => Sys2Proof.Machine.execCml s
  | .iac => Sys2Proof.Machine.execIac s
  | .rar => Sys2Proof.Machine.execRar s
  | .ral => Sys2Proof.Machine.execRal s
  | .rtr => Sys2Proof.Machine.execRtr s
  | .rtl => Sys2Proof.Machine.execRtl s
  | .opr1Bit1Alone q => Sys2Proof.Machine.execOpr1Bit1Alone q s
  | .opr1BothRotates q twice => Sys2Proof.Machine.execOpr1BothRotates q twice s
  | .nopGroup2 => Sys2Proof.Machine.execNopGroup2 s
  | .claGroup2 => Sys2Proof.Machine.execClaGroup2 s
  | .sma => Sys2Proof.Machine.execSma s
  | .sza => Sys2Proof.Machine.execSza s
  | .snl => Sys2Proof.Machine.execSnl s
  | .spa => Sys2Proof.Machine.execSpa s
  | .sna => Sys2Proof.Machine.execSna s
  | .szl => Sys2Proof.Machine.execSzl s
  | .skp => Sys2Proof.Machine.execSkp s
  | .osr => Sys2Proof.Machine.execOsr s
  | .hlt => Sys2Proof.Machine.execHlt s
  | .rsf => Sys2Proof.Machine.execRsf s
  | .rrb => Sys2Proof.Machine.execRrb s
  | .rfc => Sys2Proof.Machine.execRfc s
  | .rrbRfc => Sys2Proof.Machine.execRrbRfc s
  | .psf => Sys2Proof.Machine.execPsf s
  | .pcf => Sys2Proof.Machine.execPcf s
  | .ppc => Sys2Proof.Machine.execPpc s
  | .pls => Sys2Proof.Machine.execPls s
  | .ksf => Sys2Proof.Machine.execKsf s
  | .kcc => Sys2Proof.Machine.execKcc s
  | .krs => Sys2Proof.Machine.execKrs s
  | .krb => Sys2Proof.Machine.execKrb s
  | .tsf => Sys2Proof.Machine.execTsf s
  | .tcf => Sys2Proof.Machine.execTcf s
  | .tpc => Sys2Proof.Machine.execTpc s
  | .tls => Sys2Proof.Machine.execTls s
  | .iotReaderOtherPulseSets p => Sys2Proof.Machine.execIotReaderOtherPulseSets p s
  | .iotPunchOtherPulseSets p => Sys2Proof.Machine.execIotPunchOtherPulseSets p s
  | .iotKeyboardOtherPulseSets p => Sys2Proof.Machine.execIotKeyboardOtherPulseSets p s
  | .iotPrinterOtherPulseSets p => Sys2Proof.Machine.execIotPrinterOtherPulseSets p s
  | .iotUnclaimedSelector p => Sys2Proof.Machine.execIotUnclaimedSelector p s

end Sys2Proof.Machine
end

