-- ==== Sys2Proof/Machine/RunControl.lean ====
section
/-! DEFINITION. Run control (41_cycle R141 to R149), the switch sample (R150) and fetch steps 1 to 3 (R152 to R154). -/

namespace Sys2Proof.Machine

/-- A key sample: "a fresh draw from the environment" (41_cycle R142, assumption 5). -/
def Environment.drawKey (e : Environment) : Key × Environment :=
  let d := draw Config.panelKey e.keys e.freeDraws
  (d.1, { e with keys := d.2.1, freeDraws := d.2.2 })

/-- What this observation sees. -/
def Environment.key (e : Environment) : Key := e.drawKey.1

/-- A sample is consumed when observed (41_cycle R142). -/
def Environment.dropKey (e : Environment) : Environment := e.drawKey.2

/-- A switch sample (41_cycle R150, assumption 6). -/
def Environment.drawSwitches (e : Environment) : Word × Environment :=
  let d := draw Config.panelSwitches e.switches e.freeDraws
  (d.1, { e with switches := d.2.1, freeDraws := d.2.2 })

/-- Arm: a STEP key sets SSTEP, any other sample is dropped (41_cycle R143). -/
def arm (s : State) : State :=
  let t := s.setEnv s.env.dropKey
  if s.env.key = .step then t.setSstep true else t

/-- Force: SSTEP sets HALT (41_cycle R144). -/
def force (s : State) : State := if s.sstep then s.setHalt true else s

/-- Entry to the halt wait, where EXIT is looked at before any poll (41_cycle R145, R147). -/
def enterWait (s : State) : State :=
  if s.halt then (if s.exit then s.setRun .off else s.setRun .waiting) else s

/-- The run-control step of a cycle up to the first poll (41_cycle R141). -/
def runControl (s : State) : State := enterWait (force (arm s))

/-- One poll inside the halt wait (41_cycle R146). -/
def poll (s : State) : State :=
  let t := s.setEnv s.env.dropKey
  match s.env.key with
  | .continue => ((t.setSstep false).setHalt false).setRun .running
  | .step => ((t.setSstep true).setHalt false).setRun .running
  | .none => t
  | .other => t

/-- `draw v; SR <- v` (41_cycle R150). -/
def sampleSwitches (s : State) : State := (s.setSr s.env.drawSwitches.1).setEnv s.env.drawSwitches.2

/-- Fetch steps 1 to 3 (41_cycle R152, R153, R154). -/
def fetch (s : State) : State := (((s.setMa s.pc).setMb s.pc).setPc (s.pc + 1)).setIr (s.readMem s.pc)

end Sys2Proof.Machine
end

