-- ==== Sys2Proof/Machine/Step.lean ====
section
/-! DEFINITION. One step of the machine (41_cycle R140; its granularity is assumption 14). -/

namespace Sys2Proof.Machine

/-- Decode and execute the fetched word; the decoder's default arm raises InvalidOperation (41_cycle R161, 60 R303). -/
def executeFetched (s : State) : Host.Outcome State Fault Refusal :=
  match decodeWord s.ir with
  | .ok i => exec i s
  | .error _ => .next (s.raise .invalidOperation)

/-- The rest of a cycle after run control: switches, fetch, execute (41_cycle R140). -/
def cycle (s : State) : Host.Outcome State Fault Refusal := executeFetched (fetch (sampleSwitches s))

/-- What follows run control: the rest of the cycle when the engine runs, nothing when it waits or is off. -/
def proceed (s : State) : Host.Outcome State Fault Refusal := if s.run = .running then cycle s else .next s

/-- One step: a cycle; or, in the halt wait, one poll and, if it ends the wait, the rest of that cycle. The two
terminal run states have no step (41_cycle R147, 60_exceptions R300). -/
def step (s : State) : Host.Outcome State Fault Refusal :=
  match s.run with
  | .running => proceed (runControl s)
  | .waiting => proceed (poll s)
  | .off => .fault .poweredOff
  | .fault kind addr ir => .fault (.engine kind addr ir)

/-- The state with one instruction word placed where the next step fetches it: the word at PC, the engine running,
not halted and not single-stepping, no key at the arm sample, and the switches where they stand at the switch sample
(assumption 16). -/
def State.withFetchWord (s : State) (_nbits w : Nat) : State :=
  { s with
    mem := s.mem.write s.pc (BitVec.ofNat 12 w)
    run := .running
    halt := false
    sstep := false
    env := { s.env with keys := .none :: s.env.keys, switches := s.sr :: s.env.switches } }

end Sys2Proof.Machine
end

