-- ==== Sys2Proof/Machine/Loader.lean ====
section
/-! DEFINITION. The two program loaders and the start of a run (70_reset R330 to R346). They run once, before the first
cycle; a load that fails leaves no machine state (60_exceptions R305). -/

namespace Sys2Proof.Machine

/-- Why a load fails. -/
inductive LoadError where
  /-- A token of an object file is not an octal number (70_reset R337). -/
  | badToken
  /-- A data token arrives when the write address has passed 0o7777 (70_reset R336). -/
  | pastEnd
  /-- A RIM block's lead byte lacks bit 6 and is not the trailer (70_reset R340). -/
  | noAddressMark
  /-- A RIM block of 1 to 3 bytes that is not the trailer (70_reset R342). -/
  | shortBlock
  /-- The file cannot be opened or read (60_exceptions R305, 70_reset R343). -/
  | unreadable
  deriving DecidableEq, Repr

/-! ### Object format (70_reset R334 to R338) -/

/-- The characters that separate tokens (70_reset R334, assumption 15). -/
def isSeparator (c : Char) : Bool := c.toNat = 32 || (decide (9 ≤ c.toNat) && decide (c.toNat ≤ 13))

/-- The tokens of a text; `word` holds the characters of the token being read, last first. -/
def splitTokens (word : List Char) : List Char → List (List Char)
  | [] => if word.isEmpty then [] else [word.reverse]
  | c :: rest =>
    if isSeparator c then
      (if word.isEmpty then splitTokens [] rest else word.reverse :: splitTokens [] rest)
    else splitTokens (c :: word) rest

/-- Base 8, most significant digit first (70_reset R334). -/
def parseDigits (n : Nat) : List Char → Option Nat
  | [] => some n
  | c :: rest =>
    if decide (48 ≤ c.toNat) && decide (c.toNat ≤ 55) then parseDigits (n * 8 + (c.toNat - 48)) rest else none

/-- The tokens as numbers; none when one does not parse (70_reset R337). -/
def parseTokens : List (List Char) → Option (List Nat)
  | [] => some []
  | t :: rest =>
    match parseDigits 0 t, parseTokens rest with
    | some n, some ns => some (n :: ns)
    | _, _ => none

/-- The tokens applied to an image from write address `wa` on (70_reset R335, R336). -/
def applyTokens (wa : Nat) (m : Memory) : List Nat → Except LoadError Memory
  | [] => .ok m
  | t :: rest =>
    if 0o7777 < t then applyTokens (t % 4096) m rest
    else if wa < Config.memoryWords then applyTokens (wa + 1) (m.write (BitVec.ofNat 12 wa) (BitVec.ofNat 12 t)) rest
    else .error .pastEnd

/-- The object loader (70_reset R333 to R337). -/
def loadObject (text : List Char) : Except LoadError Memory :=
  match parseTokens (splitTokens [] text) with
  | some ns => applyTokens 0 [] ns
  | none => .error .badToken

/-- The tokens that encode an image: an address-set token before each run of words, then the words (70_reset R338).
`next` is where the next data token would go. -/
def objectTokens (next : Option Nat) : Memory → List Nat
  | [] => []
  | (a, v) :: rest =>
    if next = some a then v.toNat :: objectTokens (some (a + 1)) rest
    else (0o10000 + a) :: v.toNat :: objectTokens (some (a + 1)) rest

/-- A token as five octal digits and a newline. -/
def renderToken (n : Nat) : List Char :=
  [Char.ofNat (48 + n / 4096 % 8), Char.ofNat (48 + n / 512 % 8), Char.ofNat (48 + n / 64 % 8),
   Char.ofNat (48 + n / 8 % 8), Char.ofNat (48 + n % 8), Char.ofNat 10]

/-- An object file that encodes an image. -/
def objectText (m : Memory) : List Char := (objectTokens none m).flatMap renderToken

/-! ### RIM format (70_reset R339 to R344) -/

/-- The byte 0o200: leader and trailer (70_reset R339, R340). -/
def rimLeader : Byte := 0o200

/-- Two bytes as a 12-bit quantity, the high half first (70_reset R341). -/
def rimWord (high low : Byte) : Word :=
  ((high &&& 0o77#8).setWidth 12 <<< 6) ||| (low &&& 0o77#8).setWidth 12

/-- The blocks after the leader (70_reset R340, R341, R342). -/
def applyBlocks (m : Memory) : List Byte → Except LoadError Memory
  | [] => .ok m
  | b0 :: b1 :: b2 :: b3 :: rest =>
    if b0 = rimLeader then .ok m
    else if b0.getLsbD 6 then applyBlocks (m.write (rimWord b0 b1) (rimWord b2 b3)) rest
    else .error .noAddressMark
  | b0 :: _ => if b0 = rimLeader then .ok m else .error .shortBlock

/-- The RIM loader (70_reset R339 to R343). -/
def loadRim (bytes : List Byte) : Except LoadError Memory := applyBlocks [] (bytes.dropWhile (· = rimLeader))

/-! ### The start of a run -/

/-- A program file: its extension, and the bytes that reading it whole gives; none when it cannot be opened or a read
of it fails (70_reset R333, R343; assumption 21). -/
structure ProgramFile where
  extension : String
  content : Option (List Byte)
  deriving DecidableEq, Repr

/-- A byte of a text file as the character with that code (70_reset R334, assumption 15). -/
def textOf (bytes : List Byte) : List Char := bytes.map fun b => Char.ofNat b.toNat

/-- The one loader call: ".rim" selects the RIM loader, any other extension the object loader (70_reset R333); a file
that cannot be read fails the load (60_exceptions R305). -/
def load (file : ProgramFile) : Except LoadError Memory :=
  match file.content with
  | none => .error .unreadable
  | some bytes => if file.extension = ".rim" then loadRim bytes else loadObject (textOf bytes)

/-- The reset sequence (70_reset R330): the image, then the state; no run when the load fails (60_exceptions R305). -/
def boot (p : Launch) (file : ProgramFile) : Except LoadError State :=
  match load file with
  | .ok image => .ok (State.launch { p with memImage := image })
  | .error e => .error e

end Sys2Proof.Machine
end

