-- ==== Sys2Proof/Safety.lean ====
section
/-! DEFINITION. What counts as a legal state and a safe run, in the terms the statements use. -/

namespace Sys2Proof.Machine

/-- RUN agrees with the rest of the state (10_state R32; 41_cycle R145, R147; 60_exceptions R300 to R303): the engine
waits only when halted with EXIT clear, is off only when halted with EXIT set, a group 3 fault records the faulting
word and its address and left PC one past it, a DeviceIO fault records an IOT word and its address, and
InvalidOperation never happens. -/
def RunAgrees (s : State) : Prop :=
  match s.run with
  | .running => True
  | .waiting => s.halt = true ∧ s.exit = false
  | .off => s.halt = true ∧ s.exit = true
  | .fault .unimplementedOperation a w =>
    w &&& 0o7401#12 = 0o7401#12 ∧ s.ir = w ∧ s.ma = a ∧ s.mb = a ∧ s.pc = a + 1
  | .fault .deviceIO a w => w &&& 0o7000#12 = 0o6000#12 ∧ s.ir = w ∧ s.ma = a ∧ s.mb = a
  | .fault .invalidOperation _ _ => False

/-- The invariant of the machine. -/
structure Inv (s : State) : Prop where
  /-- Memory is in its canonical form: 4096 words of 12 bits, each listed at most once (10_state R21, R34). -/
  mem : s.mem.wf = true
  run : RunAgrees s
  /-- The read position stays on the tape (45_devices R251). -/
  tape : s.env.rdrPos ≤ s.env.rdrTape.length

/-- RUN is OFF or FAULT: "terminal" (41_cycle R149). -/
def State.terminal (s : State) : Bool :=
  match s.run with
  | .running => false
  | .waiting => false
  | .off => true
  | .fault _ _ _ => true

/-- RUN is FAULT: terminal and never final (41_cycle R149, 60_exceptions R300). -/
def State.faulted (s : State) : Bool :=
  match s.run with
  | .fault _ _ _ => true
  | .running => false
  | .waiting => false
  | .off => false

/-- A run of `n` steps, each of which happens, that reaches no fault. -/
def SafeRun : Nat → State → Prop
  | 0, s => s.faulted = false
  | n + 1, s => s.faulted = false ∧ ∃ t, step s = .next t ∧ SafeRun n t

/-! ### Instruction words, written as numbers -/

/-- `op<<9 | I<<8 | P<<7 | offset` (30_encoding R91; 42_memory_reference R170 to R175). -/
def mriWord (op : Nat) (m : Mri) : Word :=
  BitVec.ofNat 12 (op * 512 + m.indirect.toNat * 256 + m.page.toNat * 128 + m.offset.toNat)

/-- `0o6000 | sel<<3 | IOP4<<2 | IOP2<<1 | IOP1` (30_encoding R95). -/
def iotWord (sel : Selector) (p : Pulses) : Word :=
  BitVec.ofNat 12 (0o6000 + sel.toNat * 8 + p.iop4.toNat * 4 + p.iop2.toNat * 2 + p.iop1.toNat)

/-! ### Classes of instructions -/

/-- The selector and pulses of an I/O transfer (30_encoding R95, R99); none for every other instruction. -/
def busOf : Instr → Option (Selector × Pulses)
  | .iot sel p => some (sel, p)
  | .iotUnclaimedSelector p => some (0o00, p)
  | .rsf => some (0o01, { iop1 := true })
  | .rrb => some (0o01, { iop2 := true })
  | .rfc => some (0o01, { iop4 := true })
  | .rrbRfc => some (0o01, { iop4 := true, iop2 := true })
  | .iotReaderOtherPulseSets p => some (0o01, p)
  | .psf => some (0o02, { iop1 := true })
  | .pcf => some (0o02, { iop2 := true })
  | .ppc => some (0o02, { iop4 := true })
  | .pls => some (0o02, { iop4 := true, iop2 := true })
  | .iotPunchOtherPulseSets p => some (0o02, p)
  | .ksf => some (0o03, { iop1 := true })
  | .kcc => some (0o03, { iop2 := true })
  | .krs => some (0o03, { iop4 := true })
  | .krb => some (0o03, { iop4 := true, iop2 := true })
  | .iotKeyboardOtherPulseSets p => some (0o03, p)
  | .tsf => some (0o04, { iop1 := true })
  | .tcf => some (0o04, { iop2 := true })
  | .tpc => some (0o04, { iop4 := true })
  | .tls => some (0o04, { iop4 := true, iop2 := true })
  | .iotPrinterOtherPulseSets p => some (0o04, p)
  | .and _ | .tad _ | .isz _ | .dca _ | .jms _ | .jmp _ | .opr1 _ | .opr2 _ | .opr3 _ => none
  | .nop | .cla | .cll | .cma | .cml | .iac | .rar | .ral | .rtr | .rtl => none
  | .opr1Bit1Alone _ | .opr1BothRotates _ _ => none
  | .nopGroup2 | .claGroup2 | .sma | .sza | .snl | .spa | .sna | .szl | .skp | .osr | .hlt => none

/-- The operand fields of a memory-reference instruction; none for every other instruction. -/
def mriOf : Instr → Option Mri
  | .and m | .tad m | .isz m | .dca m | .jms m | .jmp m => some m
  | .iot _ _ | .opr1 _ | .opr2 _ | .opr3 _ => none
  | .nop | .cla | .cll | .cma | .cml | .iac | .rar | .ral | .rtr | .rtl => none
  | .opr1Bit1Alone _ | .opr1BothRotates _ _ => none
  | .nopGroup2 | .claGroup2 | .sma | .sza | .snl | .spa | .sna | .szl | .skp | .osr | .hlt => none
  | .rsf | .rrb | .rfc | .rrbRfc | .psf | .pcf | .ppc | .pls => none
  | .ksf | .kcc | .krs | .krb | .tsf | .tcf | .tpc | .tls => none
  | .iotReaderOtherPulseSets _ | .iotPunchOtherPulseSets _ => none
  | .iotKeyboardOtherPulseSets _ | .iotPrinterOtherPulseSets _ | .iotUnclaimedSelector _ => none

/-- The group 1 bits of an operate instruction of group 1; none for every other instruction. -/
def group1Of : Instr → Option Group1
  | .opr1 g => some g
  | .nop => some {}
  | .cla => some { cla := true }
  | .cll => some { cll := true }
  | .cma => some { cma := true }
  | .cml => some { cml := true }
  | .iac => some { iac := true }
  | .rar => some { rar := true }
  | .ral => some { ral := true }
  | .rtr => some { rar := true, twice := true }
  | .rtl => some { ral := true, twice := true }
  | .opr1Bit1Alone q => some (q.withRotate false false true)
  | .opr1BothRotates q twice => some (q.withRotate true true twice)
  | .and _ | .tad _ | .isz _ | .dca _ | .jms _ | .jmp _ | .iot _ _ | .opr2 _ | .opr3 _ => none
  | .nopGroup2 | .claGroup2 | .sma | .sza | .snl | .spa | .sna | .szl | .skp | .osr | .hlt => none
  | .rsf | .rrb | .rfc | .rrbRfc | .psf | .pcf | .ppc | .pls => none
  | .ksf | .kcc | .krs | .krb | .tsf | .tcf | .tpc | .tls => none
  | .iotReaderOtherPulseSets _ | .iotPunchOtherPulseSets _ => none
  | .iotKeyboardOtherPulseSets _ | .iotPrinterOtherPulseSets _ | .iotUnclaimedSelector _ => none

/-- The group 2 bits of an operate instruction of group 2; none for every other instruction. -/
def group2Of : Instr → Option Group2
  | .opr2 g => some g
  | .nopGroup2 => some {}
  | .claGroup2 => some { cla := true }
  | .sma => some { sma := true }
  | .sza => some { sza := true }
  | .snl => some { snl := true }
  | .spa => some { sma := true, sense := true }
  | .sna => some { sza := true, sense := true }
  | .szl => some { snl := true, sense := true }
  | .skp => some { sense := true }
  | .osr => some { osr := true }
  | .hlt => some { hlt := true }
  | .and _ | .tad _ | .isz _ | .dca _ | .jms _ | .jmp _ | .iot _ _ | .opr1 _ | .opr3 _ => none
  | .nop | .cla | .cll | .cma | .cml | .iac | .rar | .ral | .rtr | .rtl => none
  | .opr1Bit1Alone _ | .opr1BothRotates _ _ => none
  | .rsf | .rrb | .rfc | .rrbRfc | .psf | .pcf | .ppc | .pls => none
  | .ksf | .kcc | .krs | .krb | .tsf | .tcf | .tpc | .tls => none
  | .iotReaderOtherPulseSets _ | .iotPunchOtherPulseSets _ => none
  | .iotKeyboardOtherPulseSets _ | .iotPrinterOtherPulseSets _ | .iotUnclaimedSelector _ => none

/-- Instructions executed one after the other on one state, with no fetch in between. -/
def execAll : List Instr → State → Result
  | [], s => .next s
  | i :: rest, s =>
    match exec i s with
    | .next t => execAll rest t
    | .fault r => .fault r
    | .refused r => .refused r

/-- The micro-operations before the rotates, each as the instruction that does it alone, in hardware order
(44_operate R211). -/
def plainSequence (q : Group1Plain) : List Instr :=
  (if q.cla then [.cla] else []) ++ (if q.cll then [.cll] else []) ++ (if q.cma then [.cma] else [])
    ++ (if q.cml then [.cml] else []) ++ (if q.iac then [.iac] else [])

/-- The micro-operations of a group 1 word, each as the instruction that does it alone, in hardware order: a selected
rotate stands once, or twice when bit 1 is set (44_operate R211). -/
def group1Sequence (g : Group1) : List Instr :=
  plainSequence g.plain
    ++ List.replicate (if g.rar then (if g.twice then 2 else 1) else 0) .rar
    ++ List.replicate (if g.ral then (if g.twice then 2 else 1) else 0) .ral

/-- A next state changed by a function; a fault or a refusal as it is. -/
def mapNext (f : State → State) : Result → Result
  | .next s => .next (f s)
  | .fault r => .fault r
  | .refused r => .refused r

end Sys2Proof.Machine
end

