-- ==== Sys2Proof/Certificates/Slice0/Obligations.lean ====
section
/-! DEFINITION. The statements about the MK12 model. `formAddress m s` is fetch step 4 (41_cycle R155 to R159), the
same function the meanings call; its own statement is EffectiveAddressFormation. An equation between whole states
states the result and the frame together: every field not named on the right side is unchanged. -/

open Sys2Proof Sys2Proof.Machine

/-! ### Reset and launch -/

/-- 10_state R38 (spec's decisions D6, D7, D14, D16, D17): the state a launch creates, field by field, and what a
memory cell reads as that nothing wrote. -/
def Obligations.LaunchGivesResetValues : Prop :=
  (∀ p : Launch, State.launch p =
    { pc := p.pcReset, ir := 0, ac := 0, link := false, ma := 0, mb := 0, sr := 0, mem := p.memImage,
      halt := p.haltInit, sstep := false, exit := p.exitInit, run := .running,
      tty := { sub := .none, ac := 0, kbuf := 0 },
      tape := { sub := .none, ac := 0, rbuf := 0, rflag := false, pflag := false },
      devices := p.devices, others := p.others, env := p.env }) ∧
  (∀ a : Word, Memory.read [] a = 0)

/-- The model's invariant holds at reset. HALT and EXIT clear there are the model's choice (assumption 3). -/
def Obligations.ResetMeetsInvariant : Prop :=
  Inv State.reset ∧ State.reset.halt = false ∧ State.reset.exit = false ∧ State.reset.devices = [.tty, .tape]

/-- 70_reset R330, R333, R343, 60_exceptions R305: a load that succeeds starts a legal run with that image, and one that
fails starts none; a file that cannot be opened or read fails the load, and any other is read by the loader its
extension selects. That a file is its extension and its bytes, or none, is assumption 21 (DEDUCED); that a byte of an
object file is the character with that code is the model's choice, assumption 15 (DESIGN CHOICE). -/
def Obligations.BootStartsLegalRun : Prop :=
  ∀ (p : Launch) (file : ProgramFile), p.env.rdrPos ≤ p.env.rdrTape.length →
    (∀ image, load file = .ok image →
      ∃ s, boot p file = .ok s ∧ Inv s ∧ s.mem = image ∧ s.pc = p.pcReset ∧ s.run = .running) ∧
    (∀ e, load file = .error e → boot p file = .error e) ∧
    (file.content = none → load file = .error .unreadable) ∧
    (∀ bytes, file.content = some bytes →
      (file.extension = ".rim" → load file = loadRim bytes) ∧
      (file.extension ≠ ".rim" → load file = loadObject (bytes.map fun b => Char.ofNat b.toNat)))

/-! ### The arithmetic unit -/

/-- 40_alu R120, R121: the sum is modulo 4096, the carry is signed overflow, by the exact sum and by the sign bits;
both results commute and the sum is associative. -/
def Obligations.AddCarryIsSignedOverflow : Prop :=
  ∀ a b c : Word,
    (Alu.add a b).1.toNat = (a.toNat + b.toNat) % 4096 ∧
    ((Alu.add a b).2 = true ↔ (a.toInt + b.toInt < -2048 ∨ a.toInt + b.toInt > 2047)) ∧
    ((Alu.add a b).2 = true ↔ (a.getLsbD 11 = b.getLsbD 11 ∧ (Alu.add a b).1.getLsbD 11 ≠ a.getLsbD 11)) ∧
    (-2048 ≤ (Alu.add a b).1.toInt ∧ (Alu.add a b).1.toInt ≤ 2047) ∧
    Alu.add a b = Alu.add b a ∧
    (Alu.add (Alu.add a b).1 c).1 = (Alu.add a (Alu.add b c).1).1

/-- 40_alu R122: complementing is `a ^ 0o7777`, reads as `-s(a) - 1`, and is its own inverse. -/
def Obligations.ComplementIsTwosComplementReading : Prop :=
  ∀ a : Word, Alu.complement a = a ^^^ 0o7777#12 ∧
    (Alu.complement a).toNat = 4095 - a.toNat ∧ (Alu.complement a).toInt = -a.toInt - 1 ∧
    Alu.complement (Alu.complement a) = a

/-- 40_alu R123, R124: each rotate moves the 13-bit ring {link, AC} by one place. -/
def Obligations.RotatesMoveTheRing : Prop :=
  ∀ x : Word × Bool,
    (Alu.rotateRight x).1.toNat = x.2.toNat * 2048 + x.1.toNat / 2 ∧ (Alu.rotateRight x).2 = x.1.getLsbD 0 ∧
    (Alu.rotateLeft x).1.toNat = x.1.toNat * 2 % 4096 + x.2.toNat ∧ (Alu.rotateLeft x).2 = x.1.getLsbD 11

/-- 40_alu R125: the two rotates are inverse, and thirteen of either give the pair back (both beyond the source's own
law are the spec's inference). -/
def Obligations.RotatesAreInverse : Prop :=
  ∀ x : Word × Bool,
    Alu.rotateLeft (Alu.rotateRight x) = x ∧ Alu.rotateRight (Alu.rotateLeft x) = x ∧
    Alu.rotateRight^[13] x = x ∧ Alu.rotateLeft^[13] x = x

/-! ### Encoding -/

/-- 30_encoding R105 and 44_operate, 45_devices encodings: words written out from the spec's fields decode to the
instructions they stand for. -/
def Obligations.WrittenWordsDecode : Prop :=
  decodeWord 0b001_0_1_0000101#12 = .ok (.tad ⟨false, true, 0o05⟩) ∧
  decodeWord 0b001_1_0_0001000#12 = .ok (.tad ⟨true, false, 0o10⟩) ∧
  decodeWord 0b101_1_1_0010000#12 = .ok (.jmp ⟨true, true, 0o20⟩) ∧
  decodeWord 0b010_0_1_0000110#12 = .ok (.isz ⟨false, true, 0o06⟩) ∧
  decodeWord 0b011_0_1_0000111#12 = .ok (.dca ⟨false, true, 0o07⟩) ∧
  decodeWord 0b100_0_1_0010000#12 = .ok (.jms ⟨false, true, 0o20⟩) ∧
  decodeWord 0b110_000100_1_1_0#12 = .ok .tls ∧
  decodeWord 0b110_001000_1_1_1#12 = .ok (.iot 0o10 ⟨true, true, true⟩) ∧
  decodeWord 0b111_0_1_1_0_0_0_0_0_0#12 = .ok (.opr1 { cla := true, cll := true }) ∧
  decodeWord 0b111_1_0_0_0_0_0_0_1_0#12 = .ok .hlt ∧
  decodeWord 0b111_1_0_0_0_0_0_0_0_1#12 = .ok (.opr3 0)

/-- 30_encoding R93, R100, R101: exactly one of the ten primary rows covers a word; every word decodes, to a
well-formed instruction of a row of the opcode table that covers it; so the decoder's default arm is dead. -/
def Obligations.EveryWordDecodesInItsRow : Prop :=
  ∀ w : Word, (primaryRows.filter fun r => r.covers w).length = 1 ∧
    ∃ i, decodeWord w = .ok i ∧ WellFormed i = true ∧ (rowOf i).covers w = true

/-- Decoding an encoded well-formed instruction gives it back, every operand at every value. -/
def Obligations.DecodeOfEncode : Prop :=
  ∀ i : Instr, WellFormed i = true → decodeWord (encode i) = .ok i

/-- Encoding the instruction a word decodes to gives the word back: no bit of a word is dropped. -/
def Obligations.EncodeOfDecode : Prop :=
  ∀ (w : Word) (i : Instr), decodeWord w = .ok i → encode i = w

/-! ### A step -/

/-- 41_cycle R140, R152, R153, R154, R161: when the word at PC decodes to i, a step that run control lets through is
exec of i after the switch sample and fetch, and so is the rest of a cycle that leaves the halt wait; fetch copies PC
to MA and MB, advances PC and loads IR from memory. -/
def Obligations.StepRunsDecodedInstruction : Prop :=
  (∀ s : State, fetch s = { s with ma := s.pc, mb := s.pc, pc := s.pc + 1, ir := s.readMem s.pc }) ∧
  ∀ (s : State) (i : Instr), decodeWord (s.readMem s.pc) = .ok i →
    cycle s = exec i (fetch (sampleSwitches s)) ∧
    (s.run = .running → s.halt = false → s.sstep = false → s.env.key ≠ .step →
      step s = exec i (fetch (sampleSwitches { s with env := s.env.dropKey })))

/-- 41_cycle R150 with 44_operate R232: OSR ors the switches as sampled in its own cycle, whatever that sample `v` is:
listed, or the free value of assumption 6. -/
def Obligations.OsrUsesThisCyclesSwitches : Prop :=
  ∀ (s : State) (v : Word) (e : Environment),
    s.env.drawSwitches = (v, e) → decodeWord (s.readMem s.pc) = .ok .osr →
    cycle s = .next { s with
      ac := s.ac ||| v, sr := v, ma := s.pc, mb := s.pc, ir := s.readMem s.pc, pc := s.pc + 1, env := e }

/-- 20_memory R73 (tagged there as the spec's inference): what a DCA or an ISZ stores onto the word fetched next, and
what an autoincrement leaves in it unless the instruction then stores there itself, is what the next fetch loads. A JMS
never fetches the word it stored: it goes on one past it. -/
def Obligations.StoreIsSeenByNextFetch : Prop :=
  (∀ (m : Mri) (s : State), (formAddress m s).ma = s.pc →
    ∃ t, exec (.dca m) s = .next t ∧ (fetch t).ir = s.ac) ∧
  (∀ (m : Mri) (s : State) (v : Word), v = (formAddress m s).readMem (formAddress m s).ma + 1 →
    (formAddress m s).ma = (if v = 0 then s.pc + 1 else s.pc) →
    ∃ t, exec (.isz m) s = .next t ∧ (fetch t).ir = v) ∧
  (∀ (i : Instr) (m : Mri) (s : State), mriOf i = some m → autoincrements m s = true →
    ((formAddress m s).ma ≠ directAddress m s ∨ i = .and m ∨ i = .tad m ∨ i = .jmp m) →
    ∃ t, exec i s = .next t ∧
      (t.pc = directAddress m s → (fetch t).ir = s.readMem (directAddress m s) + 1))

/-! ### Run control -/

/-- 41_cycle R143, R144, R145, R147: arm, force and the entry to the wait, for every combination of the flags and the
arm sample. That a step ends where WAITING is stored is the model's cut (assumption 14). -/
def Obligations.RunControlTransitions : Prop :=
  ∀ s : State, s.run = .running →
    ∀ ss hh : Bool, ss = (s.sstep || decide (s.env.key = .step)) → hh = (s.halt || ss) →
      (hh = false → step s = cycle { s with env := s.env.dropKey }) ∧
      (hh = true → s.exit = false →
        step s = .next { s with env := s.env.dropKey, sstep := ss, halt := true, run := .waiting }) ∧
      (hh = true → s.exit = true →
        step s = .next { s with env := s.env.dropKey, sstep := ss, halt := true, run := .off })

/-- 41_cycle R146: what each key does in the halt wait; after STEP the engine executes exactly one instruction, and the
next step halts it again with nothing else changed. That one step is one poll, and that the step after ends at the
stored WAITING, is the model's cut (assumption 14). -/
def Obligations.HaltWaitActsOnKeys : Prop :=
  ∀ s : State, s.run = .waiting →
    (s.env.key = .continue →
      step s = cycle { s with env := s.env.dropKey, sstep := false, halt := false, run := .running }) ∧
    (s.env.key = .step →
      step s = cycle { s with env := s.env.dropKey, sstep := true, halt := false, run := .running }) ∧
    (s.env.key = .none → step s = .next { s with env := s.env.dropKey }) ∧
    (s.env.key = .other → step s = .next { s with env := s.env.dropKey }) ∧
    (s.env.key = .step → s.exit = false →
      ∃ t, step s = .next t ∧
        (t.run = .running → step t = .next { t with env := t.env.dropKey, halt := true, run := .waiting }))

/-- 44_operate R233: HLT only sets HALT; the next step waits, or ends the run with EXIT set, at the PC past the HLT;
CONTINUE resumes there. That the next step ends at the stored WAITING, and that the one after it is one poll, is the
model's cut (assumption 14). -/
def Obligations.HltHaltsAtNextRunControl : Prop :=
  ∀ s : State,
    decodeWord 0o7402#12 = .ok .hlt ∧
    exec .hlt s = .next { s with halt := true } ∧
    (s.run = .running → s.exit = false → ∃ t, step { s with halt := true } = .next t ∧
      t.run = .waiting ∧ t.pc = s.pc ∧
      (t.env.key = .continue →
        step t = cycle { t with env := t.env.dropKey, sstep := false, halt := false, run := .running })) ∧
    (s.run = .running → s.exit = true → ∃ t, step { s with halt := true } = .next t ∧ t.run = .off ∧ t.pc = s.pc)

/-- 41_cycle R147, 60_exceptions R300: no step follows OFF or FAULT. That the step then answers a fault outcome is the
model's choice (assumption 11). -/
def Obligations.TerminalStatesHaveNoStep : Prop :=
  ∀ s : State,
    (s.run = .off → step s = .fault .poweredOff) ∧
    (∀ kind addr ir, s.run = .fault kind addr ir → step s = .fault (.engine kind addr ir))

/-- 60_exceptions R317: single-step mode does not change what an instruction does. -/
def Obligations.SingleStepModeIsTransparent : Prop :=
  ∀ (s : State) (b : Bool), cycle { s with sstep := b } = mapNext (fun t => { t with sstep := b }) (cycle s)

/-! ### Whole-machine rules -/

/-- Every step keeps the invariant: canonical memory, RUN agreeing with the flags and the recorded fault, no
InvalidOperation, the read position on the tape. -/
def Obligations.StepKeepsInvariant : Prop :=
  ∀ s t : State, Inv s → step s = .next t → Inv t

/-- 60_exceptions R306, R313, 44_operate R236: no instruction is refused and none stops: exec answers a next state for
every instruction in every state. That a word the spec makes fatal answers a next state too, whose RUN is FAULT, is the
model's choice (assumption 11): group 3 always, an I/O transfer on a failure of a device, nothing else. -/
def Obligations.EveryInstructionAnswersNext : Prop :=
  ∀ (i : Instr) (s : State), ∃ t, exec i s = .next t ∧
    (∀ bits, i = .opr3 bits → t.run = .fault .unimplementedOperation s.ma s.ir) ∧
    ((∀ bits, i ≠ .opr3 bits) →
      t.run = s.run ∨ ((busOf i).isSome = true ∧ t.run = .fault .deviceIO s.ma s.ir))

/-- 10_state R28: L is written by TAD and group 1 alone. -/
def Obligations.LinkIsWrittenByTadAndGroupOneOnly : Prop :=
  ∀ (i : Instr) (s t : State), exec i s = .next t → (∀ m, i ≠ .tad m) → group1Of i = none → t.link = s.link

/-- 41_cycle R155: for IOT and OPR, MA and MB keep the instruction's own address and no memory word is touched; no
instruction writes IR. -/
def Obligations.IotAndOperateTouchNoMemory : Prop :=
  ∀ (i : Instr) (s : State), mriOf i = none →
    ∃ t, exec i s = .next t ∧ t.mem = s.mem ∧ t.ma = s.ma ∧ t.mb = s.mb ∧ t.ir = s.ir

/-- 10_state R30, R31, R35: no instruction writes SR, SSTEP, EXIT or the device list, and HALT is set only by a group 2
word with the HLT bit. -/
def Obligations.PanelStateIsNotTheProgramsToWrite : Prop :=
  ∀ (i : Instr) (s t : State), exec i s = .next t →
    t.sr = s.sr ∧ t.sstep = s.sstep ∧ t.exit = s.exit ∧ t.devices = s.devices ∧
    t.halt = (s.halt || (match group2Of i with | some g => g.hlt | none => false))

/-- 10_state R30, R35, 45_devices R251: through a run EXIT, the device list and the reader's tape stay as launched,
and the printer and punch logs only grow. -/
def Obligations.StepKeepsLaunchParametersAndLogs : Prop :=
  ∀ s t : State, step s = .next t →
    t.exit = s.exit ∧ t.devices = s.devices ∧ t.env.rdrTape = s.env.rdrTape ∧
    s.env.prtLog <+: t.env.prtLog ∧ s.env.punLog <+: t.env.punLog

/-! ### Memory-reference instructions -/

/-- 41_cycle R156, R157, R158, R159: the fields I, P and offset are bits 8, 7 and 6 to 0 of the word; EA0, the increment of an autoincrement cell before its use, EA into MA, and the
frame: nothing but MA and that one cell changes. -/
def Obligations.EffectiveAddressFormation : Prop :=
  (∀ (w : Word) (i : Instr) (m : Mri), decodeWord w = .ok i → mriOf i = some m →
    m.indirect = w.getLsbD 8 ∧ m.page = w.getLsbD 7 ∧ m.offset.setWidth 12 = w &&& 0o0177#12) ∧
  ∀ (m : Mri) (s : State) (page ea0 : Word) (auto : Bool),
    page = (if m.page then s.mb &&& 0o7600#12 else 0) →
    ea0 = page ||| m.offset.setWidth 12 →
    auto = (m.indirect && decide (0o10 ≤ ea0.toNat ∧ ea0.toNat ≤ 0o17)) →
      (formAddress m s).ma =
        (if m.indirect then (if auto then s.readMem ea0 + 1 else s.readMem ea0) else ea0) ∧
      (∀ a : Word, (formAddress m s).readMem a =
        if auto = true ∧ a = ea0 then s.readMem ea0 + 1 else s.readMem a) ∧
      formAddress m s = { s with ma := (formAddress m s).ma, mem := (formAddress m s).mem }

/-- 42_memory_reference R170: AND. -/
def Obligations.AndResult : Prop :=
  ∀ (m : Mri) (s t : State), t = formAddress m s →
    decodeWord (mriWord 0 m) = .ok (.and m) ∧
    exec (.and m) s = .next { t with mb := t.readMem t.ma, ac := s.ac &&& t.readMem t.ma }

/-- 42_memory_reference R171: TAD assigns L the signed overflow (assigned: the spec's decision D39). -/
def Obligations.TadResult : Prop :=
  ∀ (m : Mri) (s t : State) (x : Word), t = formAddress m s → x = t.readMem t.ma →
    decodeWord (mriWord 1 m) = .ok (.tad m) ∧
    exec (.tad m) s = .next { t with
      mb := x, ac := s.ac + x, link := decide (s.ac.toInt + x.toInt < -2048 ∨ s.ac.toInt + x.toInt > 2047) }

/-- 42_memory_reference R172: ISZ stores the incremented word at EA, skips when it is zero, and changes no other cell
and no other register than MB and, on a skip, PC (modulo 4096: the spec's decision D5). -/
def Obligations.IszResult : Prop :=
  ∀ (m : Mri) (s t : State) (v : Word), t = formAddress m s → v = t.readMem t.ma + 1 →
    decodeWord (mriWord 2 m) = .ok (.isz m) ∧
    ∃ u, exec (.isz m) s = .next u ∧
      (∀ a : Word, u.readMem a = if a = t.ma then v else t.readMem a) ∧
      u = { t with mb := v, mem := u.mem, pc := if v = 0 then s.pc + 1 else s.pc }

/-- 42_memory_reference R173: DCA stores AC at EA, clears AC, and changes no other cell. -/
def Obligations.DcaResult : Prop :=
  ∀ (m : Mri) (s t : State), t = formAddress m s →
    decodeWord (mriWord 3 m) = .ok (.dca m) ∧
    ∃ u, exec (.dca m) s = .next u ∧
      (∀ a : Word, u.readMem a = if a = t.ma then s.ac else t.readMem a) ∧
      u = { t with mem := u.mem, ac := 0 }

/-- 42_memory_reference R174: JMS stores the return address at EA and goes on at the next word. -/
def Obligations.JmsResult : Prop :=
  ∀ (m : Mri) (s t : State), t = formAddress m s →
    decodeWord (mriWord 4 m) = .ok (.jms m) ∧
    ∃ u, exec (.jms m) s = .next u ∧
      (∀ a : Word, u.readMem a = if a = t.ma then s.pc else t.readMem a) ∧
      u = { t with mem := u.mem, pc := t.ma + 1 }

/-- 42_memory_reference R175: JMP. -/
def Obligations.JmpResult : Prop :=
  ∀ (m : Mri) (s t : State), t = formAddress m s →
    decodeWord (mriWord 5 m) = .ok (.jmp m) ∧ exec (.jmp m) s = .next { t with pc := t.ma }

/-- 42_memory_reference R174: `JMP I entry` returns to the word after the JMS, from any later state that kept the entry
word and reaches it outside the autoincrement cells. -/
def Obligations.JumpIndirectReturnsFromSubroutine : Prop :=
  ∀ (m m' : Mri) (s s' t : State), exec (.jms m) s = .next t →
    s'.readMem t.ma = t.readMem t.ma → directAddress m' s' = t.ma → m'.indirect = true →
    autoincrements m' s' = false →
    ∃ u, exec (.jmp m') s' = .next u ∧ u.pc = s.pc ∧ u.mem = s'.mem

/-! ### Operate, group 1 -/

/-- 44_operate R212 to R215: the group 1 words that clear and complement, alone and in any combination. -/
def Obligations.ClearAndComplementWords : Prop :=
  (decodeWord 0o7200#12 = .ok .cla ∧ decodeWord 0o7100#12 = .ok .cll ∧
    decodeWord 0o7040#12 = .ok .cma ∧ decodeWord 0o7020#12 = .ok .cml) ∧
  ∀ s : State,
    exec .cla s = .next { s with ac := 0 } ∧
    exec .cll s = .next { s with link := false } ∧
    exec .cma s = .next { s with ac := s.ac ^^^ 0o7777#12 } ∧
    exec .cml s = .next { s with link := !s.link } ∧
    ∀ (cla cll cma cml : Bool) (ac : Word) (link : Bool),
      ac = (if cla then 0 else s.ac) → link = (if cll then false else s.link) →
      exec (.opr1 { cla := cla, cll := cll, cma := cma, cml := cml }) s = .next { s with
        ac := if cma then ac ^^^ 0o7777#12 else ac, link := if cml then !link else link }

/-- 44_operate R216 (that L is assigned is the spec's decision D39 as well): IAC assigns L; it becomes 1 only when AC
was 0o3777, whatever CLL or CML did earlier in the same word. -/
def Obligations.IacResult : Prop :=
  decodeWord 0o7001#12 = .ok .iac ∧
  ∀ s : State, exec .iac s = .next { s with ac := s.ac + 1, link := decide (s.ac = 0o3777#12) } ∧
    ∀ (cla cll cma cml : Bool) (ac ac' : Word),
      ac = (if cla then 0 else s.ac) → ac' = (if cma then ac ^^^ 0o7777#12 else ac) →
      exec (.opr1 { cla := cla, cll := cll, cma := cma, cml := cml, iac := true }) s = .next { s with
        ac := ac' + 1, link := decide (ac' = 0o3777#12) }

/-- 44_operate R222, R231, R234 (each the spec's inference from its group rule): the words with no micro-operation do
nothing, and the sense bit alone always skips. -/
def Obligations.NoOperationAndSkipWords : Prop :=
  (decodeWord 0o7000#12 = .ok .nop ∧ decodeWord 0o7400#12 = .ok .nopGroup2 ∧ decodeWord 0o7410#12 = .ok .skp) ∧
  ∀ s : State,
    exec .nop s = .next s ∧ exec .nopGroup2 s = .next s ∧ exec .skp s = .next { s with pc := s.pc + 1 }

/-- 44_operate R217 to R220: the single and double rotates, bit by bit. -/
def Obligations.RotateWords : Prop :=
  (decodeWord 0o7010#12 = .ok .rar ∧ decodeWord 0o7004#12 = .ok .ral ∧ decodeWord 0o7012#12 = .ok .rtr ∧
    decodeWord 0o7006#12 = .ok .rtl) ∧
  ∀ s : State,
    exec .rar s = .next { s with
      ac := BitVec.ofBool s.link ++ s.ac.extractLsb' 1 11, link := s.ac.getLsbD 0 } ∧
    exec .ral s = .next { s with
      ac := s.ac.extractLsb' 0 11 ++ BitVec.ofBool s.link, link := s.ac.getLsbD 11 } ∧
    exec .rtr s = .next { s with
      ac := BitVec.ofBool (s.ac.getLsbD 0) ++ BitVec.ofBool s.link ++ s.ac.extractLsb' 2 10,
      link := s.ac.getLsbD 1 } ∧
    exec .rtl s = .next { s with
      ac := s.ac.extractLsb' 0 10 ++ BitVec.ofBool s.link ++ BitVec.ofBool (s.ac.getLsbD 11),
      link := s.ac.getLsbD 10 }

/-- 44_operate R211: the words 0o7000 to 0o7377 are group 1, one micro-operation a bit; every one does its
micro-operations one after the other in hardware order, each as the instruction that does it alone, a selected rotate
twice when bit 1 is set, and completes with nothing but AC and L changed. -/
def Obligations.GroupOneIsItsSequence : Prop :=
  (∀ w : Word, w &&& 0o7400#12 = 0o7000#12 → ∃ i, decodeWord w = .ok i ∧ group1Of i = some {
    cla := w.getLsbD 7, cll := w.getLsbD 6, cma := w.getLsbD 5, cml := w.getLsbD 4,
    rar := w.getLsbD 3, ral := w.getLsbD 2, twice := w.getLsbD 1, iac := w.getLsbD 0 }) ∧
  ∀ (i : Instr) (g : Group1) (s : State), group1Of i = some g →
    exec i s = execAll (group1Sequence g) s ∧
    ∃ (ac : Word) (link : Bool), exec i s = .next { s with ac := ac, link := link }

/-- 44_operate R221 (the spec's decision D30), R223: a group 1 word with bit 1 and no rotate, or with both rotate
directions applied once or twice, leaves what its other micro-operations leave. -/
def Obligations.OddRotateSelectionsRotateNothing : Prop :=
  ∀ (q : Group1Plain) (s : State), ∃ (ac : Word) (link : Bool),
    execAll (plainSequence q) s = .next { s with ac := ac, link := link } ∧
    exec (.opr1Bit1Alone q) s = .next { s with ac := ac, link := link } ∧
    ∀ twice : Bool, exec (.opr1BothRotates q twice) s = .next { s with ac := ac, link := link }

/-! ### Operate, groups 2 and 3 -/

/-- 44_operate R227, R228, R229, R230: the one-condition skips in both senses. -/
def Obligations.ConditionSkipWords : Prop :=
  (decodeWord 0o7500#12 = .ok .sma ∧ decodeWord 0o7440#12 = .ok .sza ∧ decodeWord 0o7420#12 = .ok .snl ∧
    decodeWord 0o7510#12 = .ok .spa ∧ decodeWord 0o7450#12 = .ok .sna ∧ decodeWord 0o7430#12 = .ok .szl) ∧
  ∀ s : State,
    exec .sma s = .next (if s.ac.toInt < 0 then { s with pc := s.pc + 1 } else s) ∧
    exec .sza s = .next (if s.ac = 0 then { s with pc := s.pc + 1 } else s) ∧
    exec .snl s = .next (if s.link = true then { s with pc := s.pc + 1 } else s) ∧
    exec .spa s = .next (if 0 ≤ s.ac.toInt then { s with pc := s.pc + 1 } else s) ∧
    exec .sna s = .next (if s.ac ≠ 0 then { s with pc := s.pc + 1 } else s) ∧
    exec .szl s = .next (if s.link = false then { s with pc := s.pc + 1 } else s)

/-- 44_operate R226, R232: CLA of group 2 and OSR. -/
def Obligations.GroupTwoWordsWithoutTest : Prop :=
  (decodeWord 0o7600#12 = .ok .claGroup2 ∧ decodeWord 0o7404#12 = .ok .osr ∧
    decodeWord 0o7604#12 = .ok (.opr2 { cla := true, osr := true })) ∧
  ∀ s : State,
    exec .claGroup2 s = .next { s with ac := 0 } ∧
    exec .osr s = .next { s with ac := s.ac ||| s.sr } ∧
    exec (.opr2 { cla := true, osr := true }) s = .next { s with ac := s.sr }

/-- 44_operate R225: the even words 0o7400 to 0o7776 are group 2, one micro-operation a bit; every one clears first,
skips on the OR of the selected conditions reversed by the sense bit, then ors the switches and halts (the place of OSR
and HLT is the spec's decision D10). -/
def Obligations.GroupTwoSequence : Prop :=
  (∀ w : Word, w &&& 0o7401#12 = 0o7400#12 → ∃ i, decodeWord w = .ok i ∧ group2Of i = some {
    cla := w.getLsbD 7, sma := w.getLsbD 6, sza := w.getLsbD 5, snl := w.getLsbD 4,
    sense := w.getLsbD 3, osr := w.getLsbD 2, hlt := w.getLsbD 1 }) ∧
  ∀ (i : Instr) (g : Group2) (s : State) (ac : Word) (c take : Prop) [Decidable take],
    group2Of i = some g →
    ac = (if g.cla then 0 else s.ac) →
    (c ↔ ((g.sma = true ∧ ac.toInt < 0) ∨ (g.sza = true ∧ ac = 0) ∨ (g.snl = true ∧ s.link = true))) →
    (take ↔ (if g.sense then ¬c else c)) →
    exec i s = .next { s with
      pc := if take then s.pc + 1 else s.pc,
      ac := if g.osr then ac ||| s.sr else ac,
      halt := s.halt || g.hlt }

/-- 44_operate R236: every group 3 word raises UnimplementedOperation whatever bits 7 to 1 hold: after fetch nothing
but RUN changes, and no micro-operation bit is acted on. -/
def Obligations.GroupThreeRaisesUnimplementedOperation : Prop :=
  (∀ w : Word, w &&& 0o7401#12 = 0o7401#12 → ∃ bits, decodeWord w = .ok (.opr3 bits)) ∧
  (∀ (bits : BitVec 7) (s : State),
    exec (.opr3 bits) s = .next { s with run := .fault .unimplementedOperation s.ma s.ir }) ∧
  ∀ (s : State) (w : Word), s.readMem s.pc = w → w &&& 0o7401#12 = 0o7401#12 →
    cycle s = .next { sampleSwitches s with
      pc := s.pc + 1, ma := s.pc, mb := s.pc, ir := w, run := .fault .unimplementedOperation s.pc w }

/-! ### The device bus -/

/-- 43_iot R196: an I/O transfer whose selector no attached device claims changes nothing. -/
def Obligations.UnclaimedTransferIsInert : Prop :=
  (∀ (i : Instr) (sel : Selector) (p : Pulses) (s : State),
    busOf i = some (sel, p) → claimant sel s = none → exec i s = .next s) ∧
  (∀ (sel : Selector) (s : State), s.devices = [.tty, .tape] → (sel = 0 ∨ 4 < sel.toNat) → claimant sel s = none)

/-- 30_encoding R95, R99: the word `0o6000 | sel<<3 | IOP4<<2 | IOP2<<1 | IOP1` decodes to a transfer on that selector
with those pulses. -/
def Obligations.TransferWordsNameSelectorAndPulses : Prop :=
  ∀ (sel : Selector) (p : Pulses), ∃ i, decodeWord (iotWord sel p) = .ok i ∧ busOf i = some (sel, p)

/-- 43_iot R193, R194: the first device of the list that claims the selector is the addressed one, whatever stands
after it, and the asserted stages run on it in the order IOP1, IOP2, IOP4. -/
def Obligations.FirstClaimantAnswers : Prop :=
  ∀ (i : Instr) (sel : Selector) (p : Pulses) (s t : State) (before after : List Device) (d : Device),
    busOf i = some (sel, p) → s.devices = before ++ d :: after →
    (∀ e ∈ before, e.select sel s.ac s = none) → d.select sel s.ac s = some t →
    claimant sel s = some d ∧
    exec i s = .next (runPulses d
      ((if p.iop1 then [Pulse.iop1] else []) ++ (if p.iop2 then [Pulse.iop2] else [])
        ++ (if p.iop4 then [Pulse.iop4] else [])) t)

/-- 43_iot R195 (order: the spec's decision D11): the signals of a stage are applied before the next stage, skips
compound, clear comes before or-input, and after the last asserted stage nothing else happens; R198: a failing stage
raises DeviceIO and ends the instruction. -/
def Obligations.StageSignalsApplyInOrder : Prop :=
  ∀ (d : Device) (k : Pulse) (later : List Pulse) (s t : State),
    runPulses d [] s = s ∧
    (∀ g : Signals, d.stage k s = (.signals g, t) →
      runPulses d (k :: later) s = runPulses d later { t with
        pc := if g.skip then t.pc + 1 else t.pc,
        ac := (if g.clear then 0 else t.ac) ||| (if g.orInput then d.get t else 0) }) ∧
    (d.stage k s = (.ioError, t) →
      runPulses d (k :: later) s = { t with run := .fault .deviceIO t.ma t.ir })

/-- 43_iot R190, R197, 70_reset R356: any transfer completes; it changes AC, PC, devices, the environment and, on a
failure, RUN, and nothing else; PC moves by at most the number of asserted pulses, at most three. -/
def Obligations.TransferFrame : Prop :=
  ∀ (i : Instr) (sel : Selector) (p : Pulses) (s : State), busOf i = some (sel, p) →
    ∃ t, exec i s = .next t ∧
      t = { s with
        pc := t.pc, ac := t.ac, run := t.run, tty := t.tty, tape := t.tape, others := t.others, env := t.env } ∧
      (t.run = s.run ∨ t.run = .fault .deviceIO s.ma s.ir) ∧
      ∃ k : Nat, k ≤ p.iop1.toNat + p.iop2.toNat + p.iop4.toNat ∧ t.pc = s.pc + BitVec.ofNat 12 k

/-- 43_iot R201 (tagged there as the spec's inference): the worked example, device X on selector 0o10. After fetch PC is
one past the IOT. That X is a table device with a copy of AC is the model's choice (assumption 4). -/
def Obligations.DeviceXWorkedExample : Prop :=
  ∀ (s : State) (x : TableDevice), x = {
      selectRows := [{ sel := 0o10 }]
      getRows := [{ value := 0o17 }]
      iop1Rows := [{ answer := .signals { skip := true } }]
      iop2Rows := [{ answer := .signals { clear := true } }]
      iop4Rows := [{ answer := .signals { skip := true, orInput := true } }] } →
    s.devices = [.tty, .tape, .other 0] → s.others = [.table x] →
    exec (.iot 0o10 ⟨true, true, true⟩) s = .next { s with
      pc := s.pc + 2, ac := 0o17, others := [.table { x with ac := s.ac }] }

/-! ### Teletype. The pulses' meanings are the spec's decisions D14, D15; where typed bytes land is assumption 7. -/

/-- 45_devices R256, R257, R258, R259: KSF, KCC, KRS, KRB with the teletype answering 0o03. `q` is the keyboard queue
when it is asked. -/
def Obligations.KeyboardWords : Prop :=
  ∀ (s : State) (e : Environment) (tty : Tty), claimant 0o03 s = some .tty →
    e = s.env.arrive → tty = { s.tty with sub := .kbd, ac := s.ac } →
    exec .ksf s = .next { s with
      tty := tty, env := e, pc := if e.kbdQ = [] then s.pc else s.pc + 1 } ∧
    exec .kcc s = .next { s with tty := tty, ac := 0 } ∧
    (e.kbdQ = [] →
      exec .krs s = .next { s with tty := tty, env := e, ac := s.ac ||| s.tty.kbuf.setWidth 12 } ∧
      exec .krb s = .next { s with tty := tty, env := e, ac := s.tty.kbuf.setWidth 12 }) ∧
    (∀ b rest, e.kbdQ = b :: rest →
      exec .krs s = .next { s with
        tty := { tty with kbuf := b }, env := { e with kbdQ := rest }, ac := s.ac ||| b.setWidth 12 } ∧
      exec .krb s = .next { s with
        tty := { tty with kbuf := b }, env := { e with kbdQ := rest }, ac := b.setWidth 12 })

/-- 45_devices R260: the other pulse sets on 0o03: the skip is decided before the read, the clear comes before the
or-input. `e1` and `e2` are the environment when the first and the second stage ask for the queue. -/
def Obligations.KeyboardOtherPulseSets : Prop :=
  ∀ (s : State) (e1 e2 : Environment) (tty : Tty) (pc : Word), claimant 0o03 s = some .tty →
    e1 = s.env.arrive → e2 = e1.arrive → tty = { s.tty with sub := .kbd, ac := s.ac } →
    pc = (if e1.kbdQ = [] then s.pc else s.pc + 1) →
    exec (.iotKeyboardOtherPulseSets {}) s = .next { s with tty := tty } ∧
    exec (.iotKeyboardOtherPulseSets { iop2 := true, iop1 := true }) s = .next { s with
      tty := tty, env := e1, ac := 0, pc := pc } ∧
    (e2.kbdQ = [] →
      exec (.iotKeyboardOtherPulseSets { iop4 := true, iop1 := true }) s = .next { s with
        tty := tty, env := e2, pc := pc, ac := s.ac ||| s.tty.kbuf.setWidth 12 } ∧
      exec (.iotKeyboardOtherPulseSets { iop4 := true, iop2 := true, iop1 := true }) s = .next { s with
        tty := tty, env := e2, pc := pc, ac := s.tty.kbuf.setWidth 12 }) ∧
    (∀ b rest, e2.kbdQ = b :: rest →
      exec (.iotKeyboardOtherPulseSets { iop4 := true, iop1 := true }) s = .next { s with
        tty := { tty with kbuf := b }, env := { e2 with kbdQ := rest }, pc := pc, ac := s.ac ||| b.setWidth 12 } ∧
      exec (.iotKeyboardOtherPulseSets { iop4 := true, iop2 := true, iop1 := true }) s = .next { s with
        tty := { tty with kbuf := b }, env := { e2 with kbdQ := rest }, pc := pc, ac := b.setWidth 12 })

/-- 45_devices R261 to R265: TSF, TCF, TPC, TLS and the other pulse sets with the teletype answering 0o04. The
readiness `r` is whatever the environment draws: listed, or the free value of assumption 8. -/
def Obligations.PrinterWords : Prop :=
  ∀ (s : State) (r : Bool) (e : Environment) (tty : Tty), claimant 0o04 s = some .tty →
    s.env.drawReady = (r, e) → tty = { s.tty with sub := .prt, ac := s.ac } →
    exec .tsf s = .next { s with tty := tty, env := e, pc := if r then s.pc + 1 else s.pc } ∧
    exec .tcf s = .next { s with tty := tty } ∧
    exec .tpc s = .next { s with
      tty := tty, env := { s.env with prtLog := s.env.prtLog ++ [s.ac.setWidth 8] } } ∧
    exec .tls s = .next { s with
      tty := tty, env := { s.env with prtLog := s.env.prtLog ++ [s.ac.setWidth 8] } } ∧
    exec (.iotPrinterOtherPulseSets {}) s = .next { s with tty := tty } ∧
    exec (.iotPrinterOtherPulseSets { iop2 := true, iop1 := true }) s = .next { s with
      tty := tty, env := e, pc := if r then s.pc + 1 else s.pc } ∧
    ∀ iop2 : Bool, exec (.iotPrinterOtherPulseSets { iop4 := true, iop2 := iop2, iop1 := true }) s = .next { s with
      tty := tty, env := { e with prtLog := s.env.prtLog ++ [s.ac.setWidth 8] },
      pc := if r then s.pc + 1 else s.pc }

/-! ### Paper tape. The pulses' meanings are the spec's decisions D16, D17. -/

/-- 45_devices R273 to R276: RSF and RRB with the tape unit answering 0o01, and RFC and RRB RFC when the read they make
does not fail; past the end of the tape a zero byte is read and the flag is set. -/
def Obligations.ReaderWords : Prop :=
  ∀ (s : State) (tape : Tape), claimant 0o01 s = some .tape →
    tape = { s.tape with sub := .rdr, ac := s.ac } →
    exec .rsf s = .next { s with tape := tape, pc := if s.tape.rflag then s.pc + 1 else s.pc } ∧
    exec .rrb s = .next { s with tape := { tape with rflag := false }, ac := s.ac ||| s.tape.rbuf.setWidth 12 } ∧
    ∀ (e : Environment) (fetched : Tape) (b : Byte) (pos : Nat), s.env.drawReaderFails = (false, e) →
      (b, pos) = (match s.env.rdrTape[s.env.rdrPos]? with
        | some c => (c, s.env.rdrPos + 1)
        | none => (0, s.env.rdrPos)) →
      fetched = { tape with rbuf := b, rflag := true } →
      exec .rfc s = .next { s with tape := fetched, env := { e with rdrPos := pos } } ∧
      exec .rrbRfc s = .next { s with
        tape := fetched, env := { e with rdrPos := pos }, ac := s.ac ||| s.tape.rbuf.setWidth 12 }

/-- 45_devices R281: the other pulse sets on 0o01, those that fetch when the read does not fail; in 0o6017 the skip is
decided on the flag before RRB clears it. -/
def Obligations.ReaderOtherPulseSets : Prop :=
  ∀ (s : State) (tape : Tape) (pc : Word), claimant 0o01 s = some .tape →
    tape = { s.tape with sub := .rdr, ac := s.ac } → pc = (if s.tape.rflag then s.pc + 1 else s.pc) →
    exec (.iotReaderOtherPulseSets {}) s = .next { s with tape := tape } ∧
    exec (.iotReaderOtherPulseSets { iop2 := true, iop1 := true }) s = .next { s with
      tape := { tape with rflag := false }, ac := s.ac ||| s.tape.rbuf.setWidth 12, pc := pc } ∧
    ∀ (e : Environment) (fetched : Tape) (b : Byte) (pos : Nat), s.env.drawReaderFails = (false, e) →
      (b, pos) = (match s.env.rdrTape[s.env.rdrPos]? with
        | some c => (c, s.env.rdrPos + 1)
        | none => (0, s.env.rdrPos)) →
      fetched = { tape with rbuf := b, rflag := true } →
      exec (.iotReaderOtherPulseSets { iop4 := true, iop1 := true }) s = .next { s with
        tape := fetched, env := { e with rdrPos := pos }, pc := pc } ∧
      exec (.iotReaderOtherPulseSets { iop4 := true, iop2 := true, iop1 := true }) s = .next { s with
        tape := fetched, env := { e with rdrPos := pos }, ac := s.ac ||| s.tape.rbuf.setWidth 12, pc := pc }

/-- 45_devices R277 to R281: PSF, PCF and the other pulse sets without IOP4 with the tape unit answering 0o02, and PPC,
PLS and the other sets when the write they make does not fail; the skip is decided on the flag as it was. -/
def Obligations.PunchWords : Prop :=
  ∀ (s : State) (tape : Tape) (pc : Word), claimant 0o02 s = some .tape →
    tape = { s.tape with sub := .pun, ac := s.ac } → pc = (if s.tape.pflag then s.pc + 1 else s.pc) →
    exec .psf s = .next { s with tape := tape, pc := pc } ∧
    exec .pcf s = .next { s with tape := { tape with pflag := false } } ∧
    exec (.iotPunchOtherPulseSets {}) s = .next { s with tape := tape } ∧
    exec (.iotPunchOtherPulseSets { iop2 := true, iop1 := true }) s = .next { s with
      tape := { tape with pflag := false }, pc := pc } ∧
    ∀ e : Environment, s.env.drawPunchFails = (false, e) →
      exec .ppc s = .next { s with
        tape := { tape with pflag := true }, env := { e with punLog := s.env.punLog ++ [s.ac.setWidth 8] } } ∧
      exec .pls s = .next { s with
        tape := { tape with pflag := true }, env := { e with punLog := s.env.punLog ++ [s.ac.setWidth 8] } } ∧
      ∀ iop2 : Bool, exec (.iotPunchOtherPulseSets { iop4 := true, iop2 := iop2, iop1 := true }) s = .next { s with
        tape := { tape with pflag := true }, env := { e with punLog := s.env.punLog ++ [s.ac.setWidth 8] }, pc := pc }

/-- 60_exceptions R302, 43_iot R198 (the spec's decision D13): a failing read or write raises DeviceIO; the signals of
earlier stages stay applied and the flag an earlier stage cleared stays clear, for every word that reads or writes. What
the failing stage itself leaves in the device is assumption 12. -/
def Obligations.BackingStoreFailureRaisesDeviceIO : Prop :=
  ∀ (s : State) (e : Environment) (tape : Tape) (pc : Word) (fault : RunState),
    fault = .fault .deviceIO s.ma s.ir →
    (claimant 0o01 s = some .tape → s.env.drawReaderFails = (true, e) →
      tape = { s.tape with sub := .rdr, ac := s.ac, rflag := false } →
      pc = (if s.tape.rflag then s.pc + 1 else s.pc) →
      exec .rfc s = .next { s with tape := tape, env := e, run := fault } ∧
      exec .rrbRfc s = .next { s with
        tape := tape, env := e, ac := s.ac ||| s.tape.rbuf.setWidth 12, run := fault } ∧
      exec (.iotReaderOtherPulseSets { iop4 := true, iop1 := true }) s = .next { s with
        tape := tape, env := e, pc := pc, run := fault } ∧
      exec (.iotReaderOtherPulseSets { iop4 := true, iop2 := true, iop1 := true }) s = .next { s with
        tape := tape, env := e, pc := pc, ac := s.ac ||| s.tape.rbuf.setWidth 12, run := fault }) ∧
    (claimant 0o02 s = some .tape → s.env.drawPunchFails = (true, e) →
      tape = { s.tape with sub := .pun, ac := s.ac } → pc = (if s.tape.pflag then s.pc + 1 else s.pc) →
      exec .ppc s = .next { s with tape := tape, env := e, run := fault } ∧
      exec .pls s = .next { s with tape := { tape with pflag := false }, env := e, run := fault } ∧
      exec (.iotPunchOtherPulseSets { iop4 := true, iop1 := true }) s = .next { s with
        tape := tape, env := e, pc := pc, run := fault } ∧
      exec (.iotPunchOtherPulseSets { iop4 := true, iop2 := true, iop1 := true }) s = .next { s with
        tape := { tape with pflag := false }, env := e, pc := pc, run := fault })

/-! ### The loaders -/

/-- 70_reset R335, R336, R337 (the spec's decisions D24, D25): what one token does to the image and the write address;
a text whose tokens all parse is applied from write address 0 to an empty image; a token that is no octal number fails
the load; and the example of R346 with no address token. -/
def Obligations.ObjectTokensApplyInOrder : Prop :=
  (∀ (wa : Nat) (image : Memory), applyTokens wa image [] = .ok image) ∧
  (∀ (wa : Nat) (image : Memory) (t : Nat) (later : List Nat),
    (0o7777 < t → applyTokens wa image (t :: later) = applyTokens (t % 4096) image later) ∧
    (t ≤ 0o7777 → wa < 4096 →
      applyTokens wa image (t :: later) =
        applyTokens (wa + 1) (image.write (BitVec.ofNat 12 wa) (BitVec.ofNat 12 t)) later) ∧
    (t ≤ 0o7777 → 4096 ≤ wa → applyTokens wa image (t :: later) = .error .pastEnd)) ∧
  (∀ (text : List Char) (tokens : List Nat),
    (splitTokens [] text).map (parseDigits 0) = tokens.map some → loadObject text = applyTokens 0 [] tokens) ∧
  (∀ text : List Char, (∃ t ∈ splitTokens [] text, parseDigits 0 t = none) → loadObject text = .error .badToken) ∧
  loadObject ['7', '4', '0', '2'] = .ok [(0, 0o7402)]

/-- 70_reset R338: encoding any memory image as an object file and loading it gives the image back. -/
def Obligations.ObjectFileRoundTrip : Prop :=
  ∀ m : Memory, m.wf = true → loadObject (objectText m) = .ok m

/-- 70_reset R339, R340, R341, R344: leader, any number of marked blocks and the trailer load exactly those words, in
stream order, whatever follows the trailer; so does a stream that ends after the last block (R342). A stream with no
block has no trailer to tell from the leader, which is skipped whole. -/
def Obligations.RimStreamLoadsItsBlocks : Prop :=
  ∀ (n : Nat) (blocks : List (Byte × Byte × Byte × Byte)) (tail : List Byte),
    (∀ b ∈ blocks, b.1.getLsbD 6 = true) → (tail = [] ∨ ∃ rest, tail = 0o200#8 :: rest ∧ (blocks ≠ [] ∨ rest = [])) →
    loadRim (List.replicate n 0o200#8
        ++ blocks.flatMap (fun b => [b.1, b.2.1, b.2.2.1, b.2.2.2]) ++ tail) =
      .ok (blocks.foldl (fun image b =>
        image.write (BitVec.ofNat 12 (b.1.toNat % 64 * 64 + b.2.1.toNat % 64))
          (BitVec.ofNat 12 (b.2.2.1.toNat % 64 * 64 + b.2.2.2.toNat % 64))) [])

/-- 70_reset R340, R342, R343: after any number of good blocks, a block whose lead byte lacks bit 6 and is not the
trailer fails the load, and so does a short block. -/
def Obligations.RimFormatErrorsFailTheLoad : Prop :=
  ∀ (n : Nat) (blocks : List (Byte × Byte × Byte × Byte)) (bad : List Byte) (lead : Byte),
    (∀ b ∈ blocks, b.1.getLsbD 6 = true) → bad.head? = some lead → lead ≠ 0o200#8 →
    (lead.getLsbD 6 = false ∨ bad.length < 4) →
    ∃ e, loadRim (List.replicate n 0o200#8
      ++ blocks.flatMap (fun b => [b.1, b.2.1, b.2.2.1, b.2.2.2]) ++ bad) = .error e
end

