-- ==== Sys2Proof/Laws/Alu.lean ====
section
/-! SUPPORT. The arithmetic unit in bit-vector terms. -/

namespace Sys2Proof.Machine

/-- The sum is addition modulo 4096. -/
@[simp] theorem Alu.add_fst (a b : Word) : (Alu.add a b).1 = a + b := by
  simp only [Alu.add]
  rw [BitVec.ofInt_add, BitVec.ofInt_toInt, BitVec.ofInt_toInt]

/-- The carry is signed overflow. -/
theorem Alu.add_snd (a b : Word) :
    (Alu.add a b).2 = decide (a.toInt + b.toInt < -2048 ∨ a.toInt + b.toInt > 2047) := by
  simp [Alu.add]

theorem Word.toInt_bounds (a : Word) : -2048 ≤ a.toInt ∧ a.toInt ≤ 2047 := by
  have h1 := BitVec.le_toInt a
  have h2 := BitVec.toInt_lt (x := a)
  simp at h1 h2
  omega

/-- Bit 11 is the sign. -/
theorem Word.bit11_eq_neg (a : Word) : a.getLsbD 11 = decide (a.toInt < 0) := by
  rw [← BitVec.msb_eq_getLsbD_last (x := a), BitVec.msb_eq_toInt]

theorem Alu.minus_eq (a : Word) : Alu.minus a = decide (a.toInt < 0) := Word.bit11_eq_neg a

@[simp] theorem Alu.complement_eq_not (a : Word) : Alu.complement a = ~~~a := BitVec.xor_allOnes (x := a)

/-- Bit 11 of a right rotate is the link, every other bit the one above it. -/
theorem Alu.getLsbD_rotateRight (x : Word × Bool) (i : Nat) (hi : i < 12) :
    (Alu.rotateRight x).1.getLsbD i = if i = 11 then x.2 else x.1.getLsbD (i + 1) := by
  obtain ⟨a, l⟩ := x
  have h12 : a.getLsbD 12 = false := by simp
  simp only [Alu.rotateRight]
  cases l <;> interval_cases i <;> simp

/-- Bit 0 of a left rotate is the link, every other bit the one below it. -/
theorem Alu.getLsbD_rotateLeft (x : Word × Bool) (i : Nat) (hi : i < 12) :
    (Alu.rotateLeft x).1.getLsbD i = if i = 0 then x.2 else x.1.getLsbD (i - 1) := by
  obtain ⟨a, l⟩ := x
  simp only [Alu.rotateLeft]
  cases l <;> interval_cases i <;> simp

@[simp] theorem Alu.rotateRight_snd (x : Word × Bool) : (Alu.rotateRight x).2 = x.1.getLsbD 0 := rfl
@[simp] theorem Alu.rotateLeft_snd (x : Word × Bool) : (Alu.rotateLeft x).2 = x.1.getLsbD 11 := rfl

end Sys2Proof.Machine
end

