-- ==== Sys2Proof/Laws/State.lean ====
section
/-! SUPPORT. One lemma per field per update of State: an update changes its own field and no other. -/

namespace Sys2Proof.Machine

variable (s : State)

/-! ### setPc -/

@[simp] theorem State.setPc_pc (v : Word) : (s.setPc v).pc = v := rfl
@[simp] theorem State.setPc_ir (v : Word) : (s.setPc v).ir = s.ir := rfl
@[simp] theorem State.setPc_ac (v : Word) : (s.setPc v).ac = s.ac := rfl
@[simp] theorem State.setPc_link (v : Word) : (s.setPc v).link = s.link := rfl
@[simp] theorem State.setPc_ma (v : Word) : (s.setPc v).ma = s.ma := rfl
@[simp] theorem State.setPc_mb (v : Word) : (s.setPc v).mb = s.mb := rfl
@[simp] theorem State.setPc_sr (v : Word) : (s.setPc v).sr = s.sr := rfl
@[simp] theorem State.setPc_mem (v : Word) : (s.setPc v).mem = s.mem := rfl
@[simp] theorem State.setPc_halt (v : Word) : (s.setPc v).halt = s.halt := rfl
@[simp] theorem State.setPc_sstep (v : Word) : (s.setPc v).sstep = s.sstep := rfl
@[simp] theorem State.setPc_exit (v : Word) : (s.setPc v).exit = s.exit := rfl
@[simp] theorem State.setPc_run (v : Word) : (s.setPc v).run = s.run := rfl
@[simp] theorem State.setPc_tty (v : Word) : (s.setPc v).tty = s.tty := rfl
@[simp] theorem State.setPc_tape (v : Word) : (s.setPc v).tape = s.tape := rfl
@[simp] theorem State.setPc_devices (v : Word) : (s.setPc v).devices = s.devices := rfl
@[simp] theorem State.setPc_others (v : Word) : (s.setPc v).others = s.others := rfl
@[simp] theorem State.setPc_env (v : Word) : (s.setPc v).env = s.env := rfl

/-! ### setIr -/

@[simp] theorem State.setIr_pc (v : Word) : (s.setIr v).pc = s.pc := rfl
@[simp] theorem State.setIr_ir (v : Word) : (s.setIr v).ir = v := rfl
@[simp] theorem State.setIr_ac (v : Word) : (s.setIr v).ac = s.ac := rfl
@[simp] theorem State.setIr_link (v : Word) : (s.setIr v).link = s.link := rfl
@[simp] theorem State.setIr_ma (v : Word) : (s.setIr v).ma = s.ma := rfl
@[simp] theorem State.setIr_mb (v : Word) : (s.setIr v).mb = s.mb := rfl
@[simp] theorem State.setIr_sr (v : Word) : (s.setIr v).sr = s.sr := rfl
@[simp] theorem State.setIr_mem (v : Word) : (s.setIr v).mem = s.mem := rfl
@[simp] theorem State.setIr_halt (v : Word) : (s.setIr v).halt = s.halt := rfl
@[simp] theorem State.setIr_sstep (v : Word) : (s.setIr v).sstep = s.sstep := rfl
@[simp] theorem State.setIr_exit (v : Word) : (s.setIr v).exit = s.exit := rfl
@[simp] theorem State.setIr_run (v : Word) : (s.setIr v).run = s.run := rfl
@[simp] theorem State.setIr_tty (v : Word) : (s.setIr v).tty = s.tty := rfl
@[simp] theorem State.setIr_tape (v : Word) : (s.setIr v).tape = s.tape := rfl
@[simp] theorem State.setIr_devices (v : Word) : (s.setIr v).devices = s.devices := rfl
@[simp] theorem State.setIr_others (v : Word) : (s.setIr v).others = s.others := rfl
@[simp] theorem State.setIr_env (v : Word) : (s.setIr v).env = s.env := rfl

/-! ### setAc -/

@[simp] theorem State.setAc_pc (v : Word) : (s.setAc v).pc = s.pc := rfl
@[simp] theorem State.setAc_ir (v : Word) : (s.setAc v).ir = s.ir := rfl
@[simp] theorem State.setAc_ac (v : Word) : (s.setAc v).ac = v := rfl
@[simp] theorem State.setAc_link (v : Word) : (s.setAc v).link = s.link := rfl
@[simp] theorem State.setAc_ma (v : Word) : (s.setAc v).ma = s.ma := rfl
@[simp] theorem State.setAc_mb (v : Word) : (s.setAc v).mb = s.mb := rfl
@[simp] theorem State.setAc_sr (v : Word) : (s.setAc v).sr = s.sr := rfl
@[simp] theorem State.setAc_mem (v : Word) : (s.setAc v).mem = s.mem := rfl
@[simp] theorem State.setAc_halt (v : Word) : (s.setAc v).halt = s.halt := rfl
@[simp] theorem State.setAc_sstep (v : Word) : (s.setAc v).sstep = s.sstep := rfl
@[simp] theorem State.setAc_exit (v : Word) : (s.setAc v).exit = s.exit := rfl
@[simp] theorem State.setAc_run (v : Word) : (s.setAc v).run = s.run := rfl
@[simp] theorem State.setAc_tty (v : Word) : (s.setAc v).tty = s.tty := rfl
@[simp] theorem State.setAc_tape (v : Word) : (s.setAc v).tape = s.tape := rfl
@[simp] theorem State.setAc_devices (v : Word) : (s.setAc v).devices = s.devices := rfl
@[simp] theorem State.setAc_others (v : Word) : (s.setAc v).others = s.others := rfl
@[simp] theorem State.setAc_env (v : Word) : (s.setAc v).env = s.env := rfl

/-! ### setLink -/

@[simp] theorem State.setLink_pc (v : Bool) : (s.setLink v).pc = s.pc := rfl
@[simp] theorem State.setLink_ir (v : Bool) : (s.setLink v).ir = s.ir := rfl
@[simp] theorem State.setLink_ac (v : Bool) : (s.setLink v).ac = s.ac := rfl
@[simp] theorem State.setLink_link (v : Bool) : (s.setLink v).link = v := rfl
@[simp] theorem State.setLink_ma (v : Bool) : (s.setLink v).ma = s.ma := rfl
@[simp] theorem State.setLink_mb (v : Bool) : (s.setLink v).mb = s.mb := rfl
@[simp] theorem State.setLink_sr (v : Bool) : (s.setLink v).sr = s.sr := rfl
@[simp] theorem State.setLink_mem (v : Bool) : (s.setLink v).mem = s.mem := rfl
@[simp] theorem State.setLink_halt (v : Bool) : (s.setLink v).halt = s.halt := rfl
@[simp] theorem State.setLink_sstep (v : Bool) : (s.setLink v).sstep = s.sstep := rfl
@[simp] theorem State.setLink_exit (v : Bool) : (s.setLink v).exit = s.exit := rfl
@[simp] theorem State.setLink_run (v : Bool) : (s.setLink v).run = s.run := rfl
@[simp] theorem State.setLink_tty (v : Bool) : (s.setLink v).tty = s.tty := rfl
@[simp] theorem State.setLink_tape (v : Bool) : (s.setLink v).tape = s.tape := rfl
@[simp] theorem State.setLink_devices (v : Bool) : (s.setLink v).devices = s.devices := rfl
@[simp] theorem State.setLink_others (v : Bool) : (s.setLink v).others = s.others := rfl
@[simp] theorem State.setLink_env (v : Bool) : (s.setLink v).env = s.env := rfl

/-! ### setMa -/

@[simp] theorem State.setMa_pc (v : Word) : (s.setMa v).pc = s.pc := rfl
@[simp] theorem State.setMa_ir (v : Word) : (s.setMa v).ir = s.ir := rfl
@[simp] theorem State.setMa_ac (v : Word) : (s.setMa v).ac = s.ac := rfl
@[simp] theorem State.setMa_link (v : Word) : (s.setMa v).link = s.link := rfl
@[simp] theorem State.setMa_ma (v : Word) : (s.setMa v).ma = v := rfl
@[simp] theorem State.setMa_mb (v : Word) : (s.setMa v).mb = s.mb := rfl
@[simp] theorem State.setMa_sr (v : Word) : (s.setMa v).sr = s.sr := rfl
@[simp] theorem State.setMa_mem (v : Word) : (s.setMa v).mem = s.mem := rfl
@[simp] theorem State.setMa_halt (v : Word) : (s.setMa v).halt = s.halt := rfl
@[simp] theorem State.setMa_sstep (v : Word) : (s.setMa v).sstep = s.sstep := rfl
@[simp] theorem State.setMa_exit (v : Word) : (s.setMa v).exit = s.exit := rfl
@[simp] theorem State.setMa_run (v : Word) : (s.setMa v).run = s.run := rfl
@[simp] theorem State.setMa_tty (v : Word) : (s.setMa v).tty = s.tty := rfl
@[simp] theorem State.setMa_tape (v : Word) : (s.setMa v).tape = s.tape := rfl
@[simp] theorem State.setMa_devices (v : Word) : (s.setMa v).devices = s.devices := rfl
@[simp] theorem State.setMa_others (v : Word) : (s.setMa v).others = s.others := rfl
@[simp] theorem State.setMa_env (v : Word) : (s.setMa v).env = s.env := rfl

/-! ### setMb -/

@[simp] theorem State.setMb_pc (v : Word) : (s.setMb v).pc = s.pc := rfl
@[simp] theorem State.setMb_ir (v : Word) : (s.setMb v).ir = s.ir := rfl
@[simp] theorem State.setMb_ac (v : Word) : (s.setMb v).ac = s.ac := rfl
@[simp] theorem State.setMb_link (v : Word) : (s.setMb v).link = s.link := rfl
@[simp] theorem State.setMb_ma (v : Word) : (s.setMb v).ma = s.ma := rfl
@[simp] theorem State.setMb_mb (v : Word) : (s.setMb v).mb = v := rfl
@[simp] theorem State.setMb_sr (v : Word) : (s.setMb v).sr = s.sr := rfl
@[simp] theorem State.setMb_mem (v : Word) : (s.setMb v).mem = s.mem := rfl
@[simp] theorem State.setMb_halt (v : Word) : (s.setMb v).halt = s.halt := rfl
@[simp] theorem State.setMb_sstep (v : Word) : (s.setMb v).sstep = s.sstep := rfl
@[simp] theorem State.setMb_exit (v : Word) : (s.setMb v).exit = s.exit := rfl
@[simp] theorem State.setMb_run (v : Word) : (s.setMb v).run = s.run := rfl
@[simp] theorem State.setMb_tty (v : Word) : (s.setMb v).tty = s.tty := rfl
@[simp] theorem State.setMb_tape (v : Word) : (s.setMb v).tape = s.tape := rfl
@[simp] theorem State.setMb_devices (v : Word) : (s.setMb v).devices = s.devices := rfl
@[simp] theorem State.setMb_others (v : Word) : (s.setMb v).others = s.others := rfl
@[simp] theorem State.setMb_env (v : Word) : (s.setMb v).env = s.env := rfl

/-! ### setSr -/

@[simp] theorem State.setSr_pc (v : Word) : (s.setSr v).pc = s.pc := rfl
@[simp] theorem State.setSr_ir (v : Word) : (s.setSr v).ir = s.ir := rfl
@[simp] theorem State.setSr_ac (v : Word) : (s.setSr v).ac = s.ac := rfl
@[simp] theorem State.setSr_link (v : Word) : (s.setSr v).link = s.link := rfl
@[simp] theorem State.setSr_ma (v : Word) : (s.setSr v).ma = s.ma := rfl
@[simp] theorem State.setSr_mb (v : Word) : (s.setSr v).mb = s.mb := rfl
@[simp] theorem State.setSr_sr (v : Word) : (s.setSr v).sr = v := rfl
@[simp] theorem State.setSr_mem (v : Word) : (s.setSr v).mem = s.mem := rfl
@[simp] theorem State.setSr_halt (v : Word) : (s.setSr v).halt = s.halt := rfl
@[simp] theorem State.setSr_sstep (v : Word) : (s.setSr v).sstep = s.sstep := rfl
@[simp] theorem State.setSr_exit (v : Word) : (s.setSr v).exit = s.exit := rfl
@[simp] theorem State.setSr_run (v : Word) : (s.setSr v).run = s.run := rfl
@[simp] theorem State.setSr_tty (v : Word) : (s.setSr v).tty = s.tty := rfl
@[simp] theorem State.setSr_tape (v : Word) : (s.setSr v).tape = s.tape := rfl
@[simp] theorem State.setSr_devices (v : Word) : (s.setSr v).devices = s.devices := rfl
@[simp] theorem State.setSr_others (v : Word) : (s.setSr v).others = s.others := rfl
@[simp] theorem State.setSr_env (v : Word) : (s.setSr v).env = s.env := rfl

/-! ### setMem -/

@[simp] theorem State.setMem_pc (v : Memory) : (s.setMem v).pc = s.pc := rfl
@[simp] theorem State.setMem_ir (v : Memory) : (s.setMem v).ir = s.ir := rfl
@[simp] theorem State.setMem_ac (v : Memory) : (s.setMem v).ac = s.ac := rfl
@[simp] theorem State.setMem_link (v : Memory) : (s.setMem v).link = s.link := rfl
@[simp] theorem State.setMem_ma (v : Memory) : (s.setMem v).ma = s.ma := rfl
@[simp] theorem State.setMem_mb (v : Memory) : (s.setMem v).mb = s.mb := rfl
@[simp] theorem State.setMem_sr (v : Memory) : (s.setMem v).sr = s.sr := rfl
@[simp] theorem State.setMem_mem (v : Memory) : (s.setMem v).mem = v := rfl
@[simp] theorem State.setMem_halt (v : Memory) : (s.setMem v).halt = s.halt := rfl
@[simp] theorem State.setMem_sstep (v : Memory) : (s.setMem v).sstep = s.sstep := rfl
@[simp] theorem State.setMem_exit (v : Memory) : (s.setMem v).exit = s.exit := rfl
@[simp] theorem State.setMem_run (v : Memory) : (s.setMem v).run = s.run := rfl
@[simp] theorem State.setMem_tty (v : Memory) : (s.setMem v).tty = s.tty := rfl
@[simp] theorem State.setMem_tape (v : Memory) : (s.setMem v).tape = s.tape := rfl
@[simp] theorem State.setMem_devices (v : Memory) : (s.setMem v).devices = s.devices := rfl
@[simp] theorem State.setMem_others (v : Memory) : (s.setMem v).others = s.others := rfl
@[simp] theorem State.setMem_env (v : Memory) : (s.setMem v).env = s.env := rfl

/-! ### setHalt -/

@[simp] theorem State.setHalt_pc (v : Bool) : (s.setHalt v).pc = s.pc := rfl
@[simp] theorem State.setHalt_ir (v : Bool) : (s.setHalt v).ir = s.ir := rfl
@[simp] theorem State.setHalt_ac (v : Bool) : (s.setHalt v).ac = s.ac := rfl
@[simp] theorem State.setHalt_link (v : Bool) : (s.setHalt v).link = s.link := rfl
@[simp] theorem State.setHalt_ma (v : Bool) : (s.setHalt v).ma = s.ma := rfl
@[simp] theorem State.setHalt_mb (v : Bool) : (s.setHalt v).mb = s.mb := rfl
@[simp] theorem State.setHalt_sr (v : Bool) : (s.setHalt v).sr = s.sr := rfl
@[simp] theorem State.setHalt_mem (v : Bool) : (s.setHalt v).mem = s.mem := rfl
@[simp] theorem State.setHalt_halt (v : Bool) : (s.setHalt v).halt = v := rfl
@[simp] theorem State.setHalt_sstep (v : Bool) : (s.setHalt v).sstep = s.sstep := rfl
@[simp] theorem State.setHalt_exit (v : Bool) : (s.setHalt v).exit = s.exit := rfl
@[simp] theorem State.setHalt_run (v : Bool) : (s.setHalt v).run = s.run := rfl
@[simp] theorem State.setHalt_tty (v : Bool) : (s.setHalt v).tty = s.tty := rfl
@[simp] theorem State.setHalt_tape (v : Bool) : (s.setHalt v).tape = s.tape := rfl
@[simp] theorem State.setHalt_devices (v : Bool) : (s.setHalt v).devices = s.devices := rfl
@[simp] theorem State.setHalt_others (v : Bool) : (s.setHalt v).others = s.others := rfl
@[simp] theorem State.setHalt_env (v : Bool) : (s.setHalt v).env = s.env := rfl

/-! ### setSstep -/

@[simp] theorem State.setSstep_pc (v : Bool) : (s.setSstep v).pc = s.pc := rfl
@[simp] theorem State.setSstep_ir (v : Bool) : (s.setSstep v).ir = s.ir := rfl
@[simp] theorem State.setSstep_ac (v : Bool) : (s.setSstep v).ac = s.ac := rfl
@[simp] theorem State.setSstep_link (v : Bool) : (s.setSstep v).link = s.link := rfl
@[simp] theorem State.setSstep_ma (v : Bool) : (s.setSstep v).ma = s.ma := rfl
@[simp] theorem State.setSstep_mb (v : Bool) : (s.setSstep v).mb = s.mb := rfl
@[simp] theorem State.setSstep_sr (v : Bool) : (s.setSstep v).sr = s.sr := rfl
@[simp] theorem State.setSstep_mem (v : Bool) : (s.setSstep v).mem = s.mem := rfl
@[simp] theorem State.setSstep_halt (v : Bool) : (s.setSstep v).halt = s.halt := rfl
@[simp] theorem State.setSstep_sstep (v : Bool) : (s.setSstep v).sstep = v := rfl
@[simp] theorem State.setSstep_exit (v : Bool) : (s.setSstep v).exit = s.exit := rfl
@[simp] theorem State.setSstep_run (v : Bool) : (s.setSstep v).run = s.run := rfl
@[simp] theorem State.setSstep_tty (v : Bool) : (s.setSstep v).tty = s.tty := rfl
@[simp] theorem State.setSstep_tape (v : Bool) : (s.setSstep v).tape = s.tape := rfl
@[simp] theorem State.setSstep_devices (v : Bool) : (s.setSstep v).devices = s.devices := rfl
@[simp] theorem State.setSstep_others (v : Bool) : (s.setSstep v).others = s.others := rfl
@[simp] theorem State.setSstep_env (v : Bool) : (s.setSstep v).env = s.env := rfl

/-! ### setRun -/

@[simp] theorem State.setRun_pc (v : RunState) : (s.setRun v).pc = s.pc := rfl
@[simp] theorem State.setRun_ir (v : RunState) : (s.setRun v).ir = s.ir := rfl
@[simp] theorem State.setRun_ac (v : RunState) : (s.setRun v).ac = s.ac := rfl
@[simp] theorem State.setRun_link (v : RunState) : (s.setRun v).link = s.link := rfl
@[simp] theorem State.setRun_ma (v : RunState) : (s.setRun v).ma = s.ma := rfl
@[simp] theorem State.setRun_mb (v : RunState) : (s.setRun v).mb = s.mb := rfl
@[simp] theorem State.setRun_sr (v : RunState) : (s.setRun v).sr = s.sr := rfl
@[simp] theorem State.setRun_mem (v : RunState) : (s.setRun v).mem = s.mem := rfl
@[simp] theorem State.setRun_halt (v : RunState) : (s.setRun v).halt = s.halt := rfl
@[simp] theorem State.setRun_sstep (v : RunState) : (s.setRun v).sstep = s.sstep := rfl
@[simp] theorem State.setRun_exit (v : RunState) : (s.setRun v).exit = s.exit := rfl
@[simp] theorem State.setRun_run (v : RunState) : (s.setRun v).run = v := rfl
@[simp] theorem State.setRun_tty (v : RunState) : (s.setRun v).tty = s.tty := rfl
@[simp] theorem State.setRun_tape (v : RunState) : (s.setRun v).tape = s.tape := rfl
@[simp] theorem State.setRun_devices (v : RunState) : (s.setRun v).devices = s.devices := rfl
@[simp] theorem State.setRun_others (v : RunState) : (s.setRun v).others = s.others := rfl
@[simp] theorem State.setRun_env (v : RunState) : (s.setRun v).env = s.env := rfl

/-! ### setTty -/

@[simp] theorem State.setTty_pc (v : Tty) : (s.setTty v).pc = s.pc := rfl
@[simp] theorem State.setTty_ir (v : Tty) : (s.setTty v).ir = s.ir := rfl
@[simp] theorem State.setTty_ac (v : Tty) : (s.setTty v).ac = s.ac := rfl
@[simp] theorem State.setTty_link (v : Tty) : (s.setTty v).link = s.link := rfl
@[simp] theorem State.setTty_ma (v : Tty) : (s.setTty v).ma = s.ma := rfl
@[simp] theorem State.setTty_mb (v : Tty) : (s.setTty v).mb = s.mb := rfl
@[simp] theorem State.setTty_sr (v : Tty) : (s.setTty v).sr = s.sr := rfl
@[simp] theorem State.setTty_mem (v : Tty) : (s.setTty v).mem = s.mem := rfl
@[simp] theorem State.setTty_halt (v : Tty) : (s.setTty v).halt = s.halt := rfl
@[simp] theorem State.setTty_sstep (v : Tty) : (s.setTty v).sstep = s.sstep := rfl
@[simp] theorem State.setTty_exit (v : Tty) : (s.setTty v).exit = s.exit := rfl
@[simp] theorem State.setTty_run (v : Tty) : (s.setTty v).run = s.run := rfl
@[simp] theorem State.setTty_tty (v : Tty) : (s.setTty v).tty = v := rfl
@[simp] theorem State.setTty_tape (v : Tty) : (s.setTty v).tape = s.tape := rfl
@[simp] theorem State.setTty_devices (v : Tty) : (s.setTty v).devices = s.devices := rfl
@[simp] theorem State.setTty_others (v : Tty) : (s.setTty v).others = s.others := rfl
@[simp] theorem State.setTty_env (v : Tty) : (s.setTty v).env = s.env := rfl

/-! ### setTape -/

@[simp] theorem State.setTape_pc (v : Tape) : (s.setTape v).pc = s.pc := rfl
@[simp] theorem State.setTape_ir (v : Tape) : (s.setTape v).ir = s.ir := rfl
@[simp] theorem State.setTape_ac (v : Tape) : (s.setTape v).ac = s.ac := rfl
@[simp] theorem State.setTape_link (v : Tape) : (s.setTape v).link = s.link := rfl
@[simp] theorem State.setTape_ma (v : Tape) : (s.setTape v).ma = s.ma := rfl
@[simp] theorem State.setTape_mb (v : Tape) : (s.setTape v).mb = s.mb := rfl
@[simp] theorem State.setTape_sr (v : Tape) : (s.setTape v).sr = s.sr := rfl
@[simp] theorem State.setTape_mem (v : Tape) : (s.setTape v).mem = s.mem := rfl
@[simp] theorem State.setTape_halt (v : Tape) : (s.setTape v).halt = s.halt := rfl
@[simp] theorem State.setTape_sstep (v : Tape) : (s.setTape v).sstep = s.sstep := rfl
@[simp] theorem State.setTape_exit (v : Tape) : (s.setTape v).exit = s.exit := rfl
@[simp] theorem State.setTape_run (v : Tape) : (s.setTape v).run = s.run := rfl
@[simp] theorem State.setTape_tty (v : Tape) : (s.setTape v).tty = s.tty := rfl
@[simp] theorem State.setTape_tape (v : Tape) : (s.setTape v).tape = v := rfl
@[simp] theorem State.setTape_devices (v : Tape) : (s.setTape v).devices = s.devices := rfl
@[simp] theorem State.setTape_others (v : Tape) : (s.setTape v).others = s.others := rfl
@[simp] theorem State.setTape_env (v : Tape) : (s.setTape v).env = s.env := rfl

/-! ### setOthers -/

@[simp] theorem State.setOthers_pc (v : List OtherDevice) : (s.setOthers v).pc = s.pc := rfl
@[simp] theorem State.setOthers_ir (v : List OtherDevice) : (s.setOthers v).ir = s.ir := rfl
@[simp] theorem State.setOthers_ac (v : List OtherDevice) : (s.setOthers v).ac = s.ac := rfl
@[simp] theorem State.setOthers_link (v : List OtherDevice) : (s.setOthers v).link = s.link := rfl
@[simp] theorem State.setOthers_ma (v : List OtherDevice) : (s.setOthers v).ma = s.ma := rfl
@[simp] theorem State.setOthers_mb (v : List OtherDevice) : (s.setOthers v).mb = s.mb := rfl
@[simp] theorem State.setOthers_sr (v : List OtherDevice) : (s.setOthers v).sr = s.sr := rfl
@[simp] theorem State.setOthers_mem (v : List OtherDevice) : (s.setOthers v).mem = s.mem := rfl
@[simp] theorem State.setOthers_halt (v : List OtherDevice) : (s.setOthers v).halt = s.halt := rfl
@[simp] theorem State.setOthers_sstep (v : List OtherDevice) : (s.setOthers v).sstep = s.sstep := rfl
@[simp] theorem State.setOthers_exit (v : List OtherDevice) : (s.setOthers v).exit = s.exit := rfl
@[simp] theorem State.setOthers_run (v : List OtherDevice) : (s.setOthers v).run = s.run := rfl
@[simp] theorem State.setOthers_tty (v : List OtherDevice) : (s.setOthers v).tty = s.tty := rfl
@[simp] theorem State.setOthers_tape (v : List OtherDevice) : (s.setOthers v).tape = s.tape := rfl
@[simp] theorem State.setOthers_devices (v : List OtherDevice) : (s.setOthers v).devices = s.devices := rfl
@[simp] theorem State.setOthers_others (v : List OtherDevice) : (s.setOthers v).others = v := rfl
@[simp] theorem State.setOthers_env (v : List OtherDevice) : (s.setOthers v).env = s.env := rfl

/-! ### setEnv -/

@[simp] theorem State.setEnv_pc (v : Environment) : (s.setEnv v).pc = s.pc := rfl
@[simp] theorem State.setEnv_ir (v : Environment) : (s.setEnv v).ir = s.ir := rfl
@[simp] theorem State.setEnv_ac (v : Environment) : (s.setEnv v).ac = s.ac := rfl
@[simp] theorem State.setEnv_link (v : Environment) : (s.setEnv v).link = s.link := rfl
@[simp] theorem State.setEnv_ma (v : Environment) : (s.setEnv v).ma = s.ma := rfl
@[simp] theorem State.setEnv_mb (v : Environment) : (s.setEnv v).mb = s.mb := rfl
@[simp] theorem State.setEnv_sr (v : Environment) : (s.setEnv v).sr = s.sr := rfl
@[simp] theorem State.setEnv_mem (v : Environment) : (s.setEnv v).mem = s.mem := rfl
@[simp] theorem State.setEnv_halt (v : Environment) : (s.setEnv v).halt = s.halt := rfl
@[simp] theorem State.setEnv_sstep (v : Environment) : (s.setEnv v).sstep = s.sstep := rfl
@[simp] theorem State.setEnv_exit (v : Environment) : (s.setEnv v).exit = s.exit := rfl
@[simp] theorem State.setEnv_run (v : Environment) : (s.setEnv v).run = s.run := rfl
@[simp] theorem State.setEnv_tty (v : Environment) : (s.setEnv v).tty = s.tty := rfl
@[simp] theorem State.setEnv_tape (v : Environment) : (s.setEnv v).tape = s.tape := rfl
@[simp] theorem State.setEnv_devices (v : Environment) : (s.setEnv v).devices = s.devices := rfl
@[simp] theorem State.setEnv_others (v : Environment) : (s.setEnv v).others = s.others := rfl
@[simp] theorem State.setEnv_env (v : Environment) : (s.setEnv v).env = v := rfl

end Sys2Proof.Machine
end

