-- ==== Sys2Proof/Laws/Bus.lean ====
section
/-! SUPPORT. What an I/O transfer can do, said once: selection and stages change devices and the environment, signals
change PC and AC, a failure changes RUN. -/

namespace Sys2Proof.Machine

/-- The environment changed only as a device operation may: the tape is the same, the logs grow, the read position
stays on the tape. -/
structure EnvStep (e f : Environment) : Prop where
  tape : f.rdrTape = e.rdrTape
  prtLog : e.prtLog <+: f.prtLog
  punLog : e.punLog <+: f.punLog
  pos : e.rdrPos ≤ e.rdrTape.length → f.rdrPos ≤ f.rdrTape.length

theorem EnvStep.refl (e : Environment) : EnvStep e e := ⟨rfl, List.prefix_refl _, List.prefix_refl _, id⟩

theorem EnvStep.trans {e f g : Environment} (h : EnvStep e f) (k : EnvStep f g) : EnvStep e g :=
  ⟨k.tape.trans h.tape, h.prtLog.trans k.prtLog, h.punLog.trans k.punLog, fun he => k.pos (h.pos he)⟩

/-- Only devices and the environment changed. -/
structure DeviceStep (s t : State) : Prop where
  frame : t = { s with tty := t.tty, tape := t.tape, others := t.others, env := t.env }
  env : EnvStep s.env t.env

theorem DeviceStep.refl (s : State) : DeviceStep s s := ⟨rfl, EnvStep.refl _⟩

/-! ### The environment's operations -/

/-- A draw from a list that holds something answers its first entry. -/
@[simp] theorem draw_cons {α : Type} (free : Nat → α) (v : α) (later : List α) (n : Nat) :
    draw free (v :: later) n = (v, later, n) := rfl

/-- A draw from an exhausted list answers the free value of the counter, which advances. -/
@[simp] theorem draw_nil {α : Type} (free : Nat → α) (n : Nat) : draw free [] n = (free n, [], n + 1) := rfl

/-- What a reader draw leaves of the tape. -/
theorem Environment.drawReaderFails_tape {e f : Environment} {b : Bool} (h : e.drawReaderFails = (b, f)) :
    f.rdrTape = e.rdrTape ∧ f.rdrPos = e.rdrPos := by
  obtain rfl : e.drawReaderFails.2 = f := by rw [h]
  exact ⟨rfl, rfl⟩

/-- A punch draw leaves the log. -/
theorem Environment.drawPunchFails_log {e f : Environment} {b : Bool} (h : e.drawPunchFails = (b, f)) :
    f.punLog = e.punLog := by
  obtain rfl : e.drawPunchFails.2 = f := by rw [h]
  rfl

/-- A printer draw leaves the log. -/
theorem Environment.drawReady_log {e f : Environment} {b : Bool} (h : e.drawReady = (b, f)) :
    f.prtLog = e.prtLog := by
  obtain rfl : e.drawReady.2 = f := by rw [h]
  rfl

theorem Environment.arrive_step (e : Environment) : EnvStep e e.arrive :=
  ⟨rfl, List.prefix_refl _, List.prefix_refl _, id⟩

theorem Environment.drawReady_step (e : Environment) : EnvStep e e.drawReady.2 :=
  ⟨rfl, List.prefix_refl _, List.prefix_refl _, id⟩

theorem Environment.drawReaderFails_step (e : Environment) : EnvStep e e.drawReaderFails.2 :=
  ⟨rfl, List.prefix_refl _, List.prefix_refl _, id⟩

theorem Environment.drawPunchFails_step (e : Environment) : EnvStep e e.drawPunchFails.2 :=
  ⟨rfl, List.prefix_refl _, List.prefix_refl _, id⟩

theorem Environment.print_step (e : Environment) (b : Byte) : EnvStep e (e.print b) :=
  ⟨rfl, List.prefix_append _ _, List.prefix_refl _, id⟩

theorem Environment.punch_step (e : Environment) (b : Byte) : EnvStep e (e.punch b) :=
  ⟨rfl, List.prefix_refl _, List.prefix_append _ _, id⟩

/-! ### Stages -/

theorem Tty.stage_env (k : Pulse) (t : Tty) (e : Environment) : EnvStep e (t.stage k e).2.2 := by
  have take : ∀ f : Environment, EnvStep f (t.takeCharacter f).2 := by
    intro f
    unfold Tty.takeCharacter
    split
    · exact EnvStep.refl f
    · exact ⟨rfl, List.prefix_refl _, List.prefix_refl _, id⟩
  unfold Tty.stage
  split
  · cases k
    · exact e.arrive_step
    · exact EnvStep.refl e
    · exact e.arrive_step.trans (take _)
  · cases k
    · exact e.drawReady_step
    · exact EnvStep.refl e
    · exact e.print_step _
  · exact EnvStep.refl e

theorem Tape.readCharacter_env (t : Tape) (e : Environment) : EnvStep e (t.readCharacter e).2 := by
  unfold Tape.readCharacter
  split
  · rename_i b hb
    have hlt : e.rdrPos < e.rdrTape.length := (List.getElem?_eq_some_iff.mp hb).1
    exact ⟨rfl, List.prefix_refl _, List.prefix_refl _, fun _ => hlt⟩
  · exact EnvStep.refl e

theorem Tape.stage_env (k : Pulse) (t : Tape) (e : Environment) : EnvStep e (t.stage k e).2.2 := by
  unfold Tape.stage
  split
  · cases k
    · exact EnvStep.refl e
    · exact EnvStep.refl e
    · show EnvStep e (t.fetchCharacter e).2.2
      unfold Tape.fetchCharacter
      split
      · exact e.drawReaderFails_step
      · exact e.drawReaderFails_step.trans (t.readCharacter_env _)
  · cases k
    · exact EnvStep.refl e
    · exact EnvStep.refl e
    · show EnvStep e (t.punchCharacter e).2.2
      unfold Tape.punchCharacter
      split
      · exact e.drawPunchFails_step
      · exact e.drawPunchFails_step.trans (Environment.punch_step _ _)
  · exact EnvStep.refl e

theorem Device.stage_step (d : Device) (k : Pulse) (s : State) : DeviceStep s (d.stage k s).2 := by
  cases d with
  | tty => exact ⟨rfl, s.tty.stage_env k s.env⟩
  | tape => exact ⟨rfl, s.tape.stage_env k s.env⟩
  | other n =>
    simp only [Device.stage]
    split
    · exact ⟨rfl, EnvStep.refl _⟩
    · exact DeviceStep.refl s

/-! ### Selection -/

theorem Device.select_step {sel : Selector} {ac : Word} {s t : State} {d : Device} (h : d.select sel ac s = some t) :
    DeviceStep s t := by
  cases d with
  | tty =>
    obtain ⟨x, -, rfl⟩ := Option.map_eq_some_iff.mp h
    exact ⟨rfl, EnvStep.refl _⟩
  | tape =>
    obtain ⟨x, -, rfl⟩ := Option.map_eq_some_iff.mp h
    exact ⟨rfl, EnvStep.refl _⟩
  | other n =>
    obtain ⟨x, -, rfl⟩ := Option.map_eq_some_iff.mp h
    exact ⟨rfl, EnvStep.refl _⟩

theorem arbitrate_select {sel : Selector} {s t : State} {ds : List Device} {d : Device}
    (h : arbitrate sel s ds = some (d, t)) : d.select sel s.ac s = some t := by
  induction ds with
  | nil => simp [arbitrate] at h
  | cons e rest ih =>
    simp only [arbitrate] at h
    split at h
    · rename_i u hu
      obtain ⟨rfl, rfl⟩ : e = d ∧ u = t := by simpa using h
      exact hu
    · exact ih h

/-- The claimant of a selector and its selection. -/
theorem claimant_eq_some {sel : Selector} {s : State} {d : Device} (h : claimant sel s = some d) :
    ∃ t, arbitrate sel s s.devices = some (d, t) ∧ d.select sel s.ac s = some t := by
  obtain ⟨⟨e, t⟩, hp, rfl⟩ := Option.map_eq_some_iff.mp h
  exact ⟨t, hp, arbitrate_select hp⟩

theorem arbitrate_of_claimant_none {sel : Selector} {s : State} (h : claimant sel s = none) :
    arbitrate sel s s.devices = none := by
  simpa [claimant] using h

/-- A transfer with no claimant (43_iot R196). -/
theorem busTransfer_of_claimant_none {sel : Selector} {s : State} (p : Pulses) (h : claimant sel s = none) :
    busTransfer sel p s = s := by
  simp [busTransfer, arbitrate_of_claimant_none h]

/-- A transfer with a claimant: its selection, then its stages (43_iot R193, R194). -/
theorem busTransfer_of_claimant {sel : Selector} {s t : State} {d : Device} (p : Pulses)
    (h : claimant sel s = some d) (hs : d.select sel s.ac s = some t) :
    busTransfer sel p s = runPulses d (assertedPulses p) t := by
  obtain ⟨u, hu, hsel⟩ := claimant_eq_some h
  obtain rfl : u = t := by simpa [hsel] using hs
  simp [busTransfer, hu]

/-! ### Transfers -/

/-- What a transfer may change, and how far PC may move. -/
structure BusStep (n : Nat) (s t : State) : Prop where
  frame : t = { s with
    pc := t.pc, ac := t.ac, run := t.run, tty := t.tty, tape := t.tape, others := t.others, env := t.env }
  env : EnvStep s.env t.env
  run : t.run = s.run ∨ t.run = .fault .deviceIO s.ma s.ir
  pc : ∃ k : Nat, k ≤ n ∧ t.pc = s.pc + BitVec.ofNat 12 k

theorem BusStep.refl (s : State) : BusStep 0 s s := ⟨rfl, EnvStep.refl _, .inl rfl, 0, le_refl 0, by simp⟩

theorem BusStep.mono {n m : Nat} {s t : State} (h : BusStep n s t) (hnm : n ≤ m) : BusStep m s t :=
  ⟨h.frame, h.env, h.run, h.pc.elim fun k hk => ⟨k, hk.1.trans hnm, hk.2⟩⟩

theorem DeviceStep.busStep {s t : State} (h : DeviceStep s t) : BusStep 0 s t := by
  have hf := h.frame
  refine ⟨?_, h.env, .inl (by rw [hf]), 0, le_refl 0, ?_⟩
  · rw [hf]
  · rw [hf]; simp

theorem BusStep.trans {n m : Nat} {s t u : State} (h : BusStep n s t) (k : BusStep m t u) : BusStep (n + m) s u := by
  have hf := h.frame
  have kf := k.frame
  have hma : t.ma = s.ma := by rw [hf]
  have hir : t.ir = s.ir := by rw [hf]
  refine ⟨?_, h.env.trans k.env, ?_, ?_⟩
  · rw [kf, hf]
  · rcases k.run with hr | hr
    · rcases h.run with hq | hq
      · exact .inl (hr.trans hq)
      · exact .inr (hr.trans hq)
    · exact .inr (by rw [hr, hma, hir])
  · obtain ⟨a, ha, hpa⟩ := h.pc
    obtain ⟨b, hb, hpb⟩ := k.pc
    refine ⟨a + b, by omega, ?_⟩
    rw [hpb, hpa, BitVec.ofNat_add, BitVec.add_assoc]

theorem applySignals_eq (d : Device) (g : Signals) (s : State) :
    applySignals d g s = { s with
      pc := if g.skip then s.pc + 1 else s.pc,
      ac := (if g.clear then 0 else s.ac) ||| (if g.orInput then d.get s else 0) } := by
  obtain ⟨a, b, c⟩ := g
  have hget : ∀ (pc ac : Word), d.get { s with pc := pc, ac := ac } = d.get s := by
    intro pc ac
    cases d <;> rfl
  cases a <;> cases b <;> cases c <;>
    simp [applySignals, State.skipIf, State.skip, State.setPc, State.setAc, hget]

theorem applySignals_step (d : Device) (g : Signals) (s : State) : BusStep 1 s (applySignals d g s) := by
  rw [applySignals_eq]
  refine ⟨rfl, EnvStep.refl _, .inl rfl, ?_⟩
  by_cases h : g.skip
  · exact ⟨1, le_refl 1, by simp [h]⟩
  · exact ⟨0, by omega, by simp [h]⟩

theorem runPulses_step (d : Device) (ks : List Pulse) (s : State) : BusStep ks.length s (runPulses d ks s) := by
  induction ks generalizing s with
  | nil => exact BusStep.refl s
  | cons k later ih =>
    have hd := d.stage_step k s
    simp only [runPulses]
    split
    · rename_i g t heq
      replace hd : DeviceStep s t := by simpa only [heq] using hd
      have := (hd.busStep.trans (applySignals_step d g t)).trans (ih (applySignals d g t))
      exact this.mono (by simp; omega)
    · rename_i t heq
      replace hd : DeviceStep s t := by simpa only [heq] using hd
      have hf := hd.frame
      have hma : t.ma = s.ma := by rw [hf]
      have hir : t.ir = s.ir := by rw [hf]
      refine ⟨?_, hd.env, .inr (by simp [State.raise, hma, hir]), 0, by simp, ?_⟩
      · simp only [State.raise, State.setRun]; rw [hf]
      · show t.pc = _
        rw [hf]; simp

/-- What an I/O transfer can do (43_iot R190, R197). -/
theorem busTransfer_step (sel : Selector) (p : Pulses) (s : State) :
    BusStep (p.iop1.toNat + p.iop2.toNat + p.iop4.toNat) s (busTransfer sel p s) := by
  have hlen : (assertedPulses p).length = p.iop1.toNat + p.iop2.toNat + p.iop4.toNat := by
    obtain ⟨a, b, c⟩ := p
    cases a <;> cases b <;> cases c <;> rfl
  unfold busTransfer
  split
  · rename_i d t h
    have hd := Device.select_step (arbitrate_select h)
    exact (hd.busStep.trans (runPulses_step d (assertedPulses p) t)).mono (by omega)
  · exact (BusStep.refl s).mono (Nat.zero_le _)

end Sys2Proof.Machine
end

