-- ==== Sys2Proof/Laws/Classes.lean ====
section
/-! SUPPORT. Which fields the instruction of a word has, from the word's fixed bits: I/O transfers, group 1, group 2. -/

namespace Sys2Proof.Machine

/-- A bit a mask keeps. -/
theorem bit_of_and {w m p : Word} (h : w &&& m = p) {i : Nat} (hm : m.getLsbD i = true) : w.getLsbD i = p.getLsbD i := by
  rw [← h, BitVec.getLsbD_and, hm, Bool.and_true]

/-- The opcode field, from the word's opcode bits. -/
theorem opcodeField_of_bits {w : Word} {k : BitVec 3} (h9 : w.getLsbD 9 = k.getLsbD 0) (h10 : w.getLsbD 10 = k.getLsbD 1)
    (h11 : w.getLsbD 11 = k.getLsbD 2) : w.extractLsb' 9 3 = k := by
  apply BitVec.eq_of_getLsbD_eq
  intro i hi
  rw [BitVec.getLsbD_extractLsb']
  match i, hi with
  | 0, _ => exact h9
  | 1, _ => exact h10
  | 2, _ => exact h11

/-- An opcode 7 word of group 1 (30_encoding R96, R97). -/
theorem decodeWord_group1 {w : Word} (h : w &&& 0o7400#12 = 0o7000#12) :
    decodeWord w = .ok (Decode.group1 (Group1.ofWord w)) := by
  have hop : w.extractLsb' 9 3 = 7#3 :=
    opcodeField_of_bits (bit_of_and h (i := 9) (by decide)) (bit_of_and h (i := 10) (by decide))
      (bit_of_and h (i := 11) (by decide))
  have h8 : w.getLsbD 8 = false := bit_of_and h (i := 8) (by decide)
  simp only [decodeWord, hop, Decode.operate, h8]
  rfl

/-- An opcode 7 word of group 2 (30_encoding R96, R98). -/
theorem decodeWord_group2 {w : Word} (h : w &&& 0o7401#12 = 0o7400#12) :
    decodeWord w = .ok (Decode.group2 (Group2.ofWord w)) := by
  have hop : w.extractLsb' 9 3 = 7#3 :=
    opcodeField_of_bits (bit_of_and h (i := 9) (by decide)) (bit_of_and h (i := 10) (by decide))
      (bit_of_and h (i := 11) (by decide))
  have h8 : w.getLsbD 8 = true := bit_of_and h (i := 8) (by decide)
  have h0 : w.getLsbD 0 = false := bit_of_and h (i := 0) (by decide)
  simp only [decodeWord, hop, Decode.operate, h8, h0]
  rfl

/-- An opcode 6 word (30_encoding R95). -/
theorem decodeWord_transfer {w : Word} (h : w &&& 0o7000#12 = 0o6000#12) :
    decodeWord w = .ok (Decode.transfer (selectorOf w) (Pulses.ofWord w)) := by
  have hop : w.extractLsb' 9 3 = 6#3 :=
    opcodeField_of_bits (bit_of_and h (i := 9) (by decide)) (bit_of_and h (i := 10) (by decide))
      (bit_of_and h (i := 11) (by decide))
  simp only [decodeWord, hop]
  rfl

/-- A group 1 instruction keeps the bits it was decoded from. -/
theorem group1Of_group1 (g : Group1) : group1Of (Decode.group1 g) = some g := by
  have hall : ∀ a b c d e f t i : Bool,
      group1Of (Decode.group1 ⟨a, b, c, d, e, f, t, i⟩) = some ⟨a, b, c, d, e, f, t, i⟩ := by decide +kernel
  exact hall _ _ _ _ _ _ _ _

/-- A group 2 instruction keeps the bits it was decoded from. -/
theorem group2Of_group2 (g : Group2) : group2Of (Decode.group2 g) = some g := by
  have hall : ∀ a b c d e f t : Bool, group2Of (Decode.group2 ⟨a, b, c, d, e, f, t⟩) = some ⟨a, b, c, d, e, f, t⟩ := by
    decide +kernel
  exact hall _ _ _ _ _ _ _

/-- An I/O transfer keeps the selector and pulses it was decoded from. -/
theorem busOf_transfer (sel : Selector) (p : Pulses) : busOf (Decode.transfer sel p) = some (sel, p) := by
  have hall : ∀ (sel : Selector) (a b c : Bool), busOf (Decode.transfer sel ⟨a, b, c⟩) = some (sel, ⟨a, b, c⟩) := by
    decide +kernel
  exact hall _ _ _ _

end Sys2Proof.Machine
end

