-- ==== Sys2Proof/Laws/Decode.lean ====
section
/-! SUPPORT. The decoder over the 4096 words: what every word decodes to, checked word by word in a form the kernel
evaluates fast, and what follows from the row an instruction belongs to. -/

namespace Sys2Proof

/-- The n-th word decodes to a well-formed instruction of a row that covers it, which encodes back to it. -/
def wordIsRight (n : Nat) : Bool :=
  match decodeWord (BitVec.ofNat 12 n) with
  | .ok i =>
    WellFormed i && Nat.beq (n.land (rowOf i).mask.toNat) (rowOf i).pattern.toNat && Nat.beq (encode i).toNat n
  | .error _ => false

/-- A check of every number below a bound. -/
def allBelow (p : Nat → Bool) : Nat → Bool
  | 0 => true
  | n + 1 => p n && allBelow p n

theorem allBelow_spec {p : Nat → Bool} {bound n : Nat} (h : allBelow p bound = true) (hn : n < bound) : p n = true := by
  induction bound with
  | zero => omega
  | succ k ih =>
    simp only [allBelow, Bool.and_eq_true] at h
    by_cases hk : n = k
    · exact hk ▸ h.1
    · exact ih h.2 (by omega)

theorem wordIsRight_all : allBelow wordIsRight 4096 = true := by decide +kernel

/-- What is known of the instruction a word decodes to. -/
structure Decoded (w : Word) (i : Instr) : Prop where
  wf : WellFormed i = true
  row : w &&& (rowOf i).mask = (rowOf i).pattern
  encode : encode i = w

theorem decoded_all (w : Word) : ∃ i, decodeWord w = .ok i ∧ Decoded w i := by
  have h := allBelow_spec wordIsRight_all w.isLt
  simp only [wordIsRight, BitVec.ofNat_toNat, BitVec.setWidth_eq] at h
  split at h
  · rename_i i hi
    simp only [Bool.and_eq_true, Nat.beq_eq] at h
    refine ⟨i, hi, h.1.1, ?_, BitVec.eq_of_toNat_eq h.2⟩
    apply BitVec.eq_of_toNat_eq
    rw [BitVec.toNat_and]
    exact h.1.2
  · cases h

/-- The decoder's default arm is dead (30_encoding R101). -/
theorem decodeWord_ok (w : Word) : ∃ i, decodeWord w = .ok i := (decoded_all w).imp fun _ h => h.1

theorem decoded {w : Word} {i : Instr} (h : decodeWord w = .ok i) : Decoded w i := by
  obtain ⟨j, hj, hd⟩ := decoded_all w
  obtain rfl : j = i := by simpa [hj] using h
  exact hd

/-- Bits a row fixes are the word's. -/
theorem Decoded.bits {w : Word} {i : Instr} (h : Decoded w i) (m : Word) (hm : (rowOf i).mask &&& m = m) :
    w &&& m = (rowOf i).pattern &&& m := by
  rw [← h.row, BitVec.and_assoc, hm]

/-- The opcode bits of a word are those of its instruction's row. -/
theorem Decoded.opcode {w : Word} {i : Instr} (h : Decoded w i) :
    w &&& 0o7000#12 = (rowOf i).pattern &&& 0o7000#12 :=
  h.bits _ (by cases i <;> simp [rowOf])

/-- A group 3 word decodes to a group 3 instruction (30_encoding R96). -/
theorem decodeWord_opr3 {w : Word} (h : w &&& 0o7401#12 = 0o7401#12) : ∃ b, decodeWord w = .ok (.opr3 b) := by
  obtain ⟨i, hi, hd⟩ := decoded_all w
  have hr : (rowOf i).pattern &&& 0o7401#12 = (rowOf i).mask &&& 0o7401#12 := by
    rw [← hd.row, BitVec.and_comm w, BitVec.and_assoc, h]
  cases i <;> first | exact ⟨_, hi⟩ | (simp [rowOf] at hr)

theorem word_of_opr3 {w : Word} {b : BitVec 7} (h : decodeWord w = .ok (.opr3 b)) : w &&& 0o7401#12 = 0o7401#12 :=
  (decoded h).row

end Sys2Proof
end

