-- ==== Sys2Proof/Laws/Memory.lean ====
section
/-! SUPPORT. Memory: what a read gives after a write, and that every operation keeps the canonical form. -/

namespace Sys2Proof.Machine

/-! ### Reads -/

theorem Memory.readAt_erase (m : Memory) (a b : Nat) :
    Memory.readAt (Memory.erase a m) b = if b = a then Config.unlisted else Memory.readAt m b := by
  induction m with
  | nil => simp [Memory.erase, Memory.readAt]
  | cons e rest ih =>
    obtain ⟨c, v⟩ := e
    by_cases hca : c = a
    · subst hca
      by_cases hb : b = c
      · simpa [Memory.erase, hb] using ih
      · simpa [Memory.erase, Memory.readAt, hb, Ne.symm hb] using ih
    · by_cases hcb : c = b
      · subst hcb
        simp [Memory.erase, Memory.readAt, hca]
      · simp [Memory.erase, Memory.readAt, hca, hcb, ih]

theorem Memory.readAt_insert (m : Memory) (a b : Nat) (v : Word) (h : ∀ e ∈ m, e.1 ≠ a) :
    Memory.readAt (Memory.insert a v m) b = if b = a then v else Memory.readAt m b := by
  induction m with
  | nil => simp [Memory.insert, Memory.readAt, eq_comm]
  | cons e rest ih =>
    obtain ⟨c, u⟩ := e
    have hca : c ≠ a := h (c, u) (by simp)
    have ih := ih fun e he => h e (by simp [he])
    by_cases hlt : a < c
    · simp [Memory.insert, Memory.readAt, hlt, eq_comm]
    · by_cases hcb : c = b
      · subst hcb
        simp [Memory.insert, Memory.readAt, hlt, hca]
      · simp [Memory.insert, Memory.readAt, hlt, hcb, ih]

theorem Memory.not_mem_erase (m : Memory) (a : Nat) : ∀ e ∈ Memory.erase a m, e.1 ≠ a := by
  induction m with
  | nil => simp [Memory.erase]
  | cons e rest ih =>
    obtain ⟨c, u⟩ := e
    by_cases hca : c = a
    · simpa [Memory.erase, hca] using ih
    · simp only [Memory.erase, hca, ↓reduceIte, List.mem_cons, forall_eq_or_imp]
      exact ⟨hca, ih⟩

/-- A write changes one cell, in every memory, canonical or not. -/
theorem Memory.readAt_write (m : Memory) (a v : Word) (b : Nat) :
    Memory.readAt (m.write a v) b = if b = a.toNat then v else Memory.readAt m b := by
  unfold Memory.write
  by_cases hv : v = Config.unlisted
  · simp [hv, Memory.readAt_erase]
  · simp only [hv, ↓reduceIte, Memory.readAt_insert _ _ _ _ (Memory.not_mem_erase m a.toNat), Memory.readAt_erase]
    by_cases hb : b = a.toNat <;> simp [hb]

/-- A read after a write to the same cell gives the word written. -/
@[simp] theorem Memory.read_write_same (m : Memory) (a v : Word) : (m.write a v).read a = v := by
  simp [Memory.read, Memory.readAt_write]

/-- A write leaves every other cell alone. -/
theorem Memory.read_write_other (m : Memory) (a b v : Word) (h : b ≠ a) : (m.write a v).read b = m.read b := by
  have : b.toNat ≠ a.toNat := fun hn => h (BitVec.eq_of_toNat_eq hn)
  simp [Memory.read, Memory.readAt_write, this]

theorem Memory.read_write (m : Memory) (a b v : Word) :
    (m.write a v).read b = if b = a then v else m.read b := by
  by_cases h : b = a
  · simp [h]
  · simp [h, Memory.read_write_other]

@[simp] theorem State.readMem_writeMem_same (s : State) (a v : Word) : (s.writeMem a v).readMem a = v := by
  simp [State.readMem, State.writeMem, State.setMem]

theorem State.readMem_writeMem_other (s : State) (a b v : Word) (h : b ≠ a) :
    (s.writeMem a v).readMem b = s.readMem b := by
  simp [State.readMem, State.writeMem, State.setMem, Memory.read_write_other, h]

/-! ### The canonical form -/

theorem Memory.wfFrom_mono {lo lo' : Nat} {m : Memory} (h : lo' ≤ lo) (hm : Memory.wfFrom lo m = true) :
    Memory.wfFrom lo' m = true := by
  cases m with
  | nil => rfl
  | cons e rest =>
    simp only [Memory.wfFrom, Bool.and_eq_true, decide_eq_true_eq] at hm ⊢
    exact ⟨⟨⟨by omega, hm.1.1.2⟩, hm.1.2⟩, hm.2⟩

theorem Memory.wfFrom_erase {lo a : Nat} {m : Memory} (hm : Memory.wfFrom lo m = true) :
    Memory.wfFrom lo (Memory.erase a m) = true := by
  induction m generalizing lo with
  | nil => rfl
  | cons e rest ih =>
    obtain ⟨c, u⟩ := e
    simp only [Memory.wfFrom, Bool.and_eq_true, decide_eq_true_eq] at hm
    by_cases hca : c = a
    · simp only [Memory.erase, hca, ↓reduceIte]
      exact Memory.wfFrom_mono (by omega) (ih hm.2)
    · simp only [Memory.erase, hca, ↓reduceIte, Memory.wfFrom, Bool.and_eq_true, decide_eq_true_eq]
      exact ⟨hm.1, ih hm.2⟩

theorem Memory.wfFrom_insert {lo a : Nat} {v : Word} {m : Memory} (hm : Memory.wfFrom lo m = true)
    (ha : ∀ e ∈ m, e.1 ≠ a) (hlo : lo ≤ a) (hhi : a < Config.memoryWords) (hv : v ≠ Config.unlisted) :
    Memory.wfFrom lo (Memory.insert a v m) = true := by
  induction m generalizing lo with
  | nil => simp [Memory.insert, Memory.wfFrom, hlo, hhi, hv]
  | cons e rest ih =>
    obtain ⟨c, u⟩ := e
    have hca : c ≠ a := ha (c, u) (by simp)
    simp only [Memory.wfFrom, Bool.and_eq_true, decide_eq_true_eq] at hm
    by_cases hlt : a < c
    · simp only [Memory.insert, hlt, ↓reduceIte, Memory.wfFrom, Bool.and_eq_true, decide_eq_true_eq]
      exact ⟨⟨⟨hlo, hhi⟩, hv⟩, ⟨⟨⟨by omega, hm.1.1.2⟩, hm.1.2⟩, hm.2⟩⟩
    · simp only [Memory.insert, hlt, ↓reduceIte, Memory.wfFrom, Bool.and_eq_true, decide_eq_true_eq]
      exact ⟨hm.1, ih hm.2 (fun e he => ha e (by simp [he])) (by omega)⟩

/-- A write keeps the canonical form. -/
theorem Memory.wf_write {m : Memory} (a v : Word) (hm : m.wf = true) : (m.write a v).wf = true := by
  have he : Memory.wfFrom 0 (Memory.erase a.toNat m) = true := Memory.wfFrom_erase hm
  unfold Memory.write Memory.wf
  by_cases hv : v = Config.unlisted
  · simpa [hv] using he
  · simpa [hv] using Memory.wfFrom_insert he (Memory.not_mem_erase m _) (Nat.zero_le _) a.isLt hv

theorem State.wf_writeMem {s : State} (a v : Word) (h : s.mem.wf = true) : (s.writeMem a v).mem.wf = true :=
  Memory.wf_write a v h

/-- The memory after reset has the form. -/
theorem State.reset_mem_wf : State.reset.mem.wf = true := rfl

end Sys2Proof.Machine
end

