-- ==== Sys2Proof/Laws/Operands.lean ====
section
/-! SUPPORT. What forming an effective address can do: the pointer cell, MA, and nothing else. -/

namespace Sys2Proof.Machine

theorem incrementPointer_eq (m : Mri) (s : State) :
    incrementPointer m s = s.setMem (incrementPointer m s).mem := by
  unfold incrementPointer
  split <;> rfl

theorem incrementPointer_readMem (m : Mri) (s : State) (a : Word) :
    (incrementPointer m s).readMem a =
      if autoincrements m s = true ∧ a = directAddress m s then s.readMem (directAddress m s) + 1 else s.readMem a := by
  unfold incrementPointer
  by_cases h : autoincrements m s
  · by_cases ha : a = directAddress m s
    · simp [h, ha]
    · simp [h, ha, State.readMem_writeMem_other]
  · simp [h]

theorem effectiveAddress_eq (m : Mri) (s : State) :
    effectiveAddress m s =
      if m.indirect then
        (if autoincrements m s then s.readMem (directAddress m s) + 1 else s.readMem (directAddress m s))
      else directAddress m s := by
  unfold effectiveAddress
  simp [incrementPointer_readMem]

theorem formAddress_eq (m : Mri) (s : State) :
    formAddress m s = (s.setMem (formAddress m s).mem).setMa (effectiveAddress m s) := by
  conv_lhs => rw [formAddress, incrementPointer_eq]
  rfl

theorem formAddress_readMem (m : Mri) (s : State) (a : Word) :
    (formAddress m s).readMem a =
      if autoincrements m s = true ∧ a = directAddress m s then s.readMem (directAddress m s) + 1 else s.readMem a :=
  incrementPointer_readMem m s a

@[simp] theorem formAddress_ma (m : Mri) (s : State) : (formAddress m s).ma = effectiveAddress m s := rfl
@[simp] theorem formAddress_pc (m : Mri) (s : State) : (formAddress m s).pc = s.pc := by rw [formAddress_eq]; rfl
@[simp] theorem formAddress_ir (m : Mri) (s : State) : (formAddress m s).ir = s.ir := by rw [formAddress_eq]; rfl
@[simp] theorem formAddress_ac (m : Mri) (s : State) : (formAddress m s).ac = s.ac := by rw [formAddress_eq]; rfl
@[simp] theorem formAddress_link (m : Mri) (s : State) : (formAddress m s).link = s.link := by rw [formAddress_eq]; rfl
@[simp] theorem formAddress_mb (m : Mri) (s : State) : (formAddress m s).mb = s.mb := by rw [formAddress_eq]; rfl
@[simp] theorem formAddress_sr (m : Mri) (s : State) : (formAddress m s).sr = s.sr := by rw [formAddress_eq]; rfl
@[simp] theorem formAddress_halt (m : Mri) (s : State) : (formAddress m s).halt = s.halt := by rw [formAddress_eq]; rfl
@[simp] theorem formAddress_sstep (m : Mri) (s : State) : (formAddress m s).sstep = s.sstep := by rw [formAddress_eq]; rfl
@[simp] theorem formAddress_exit (m : Mri) (s : State) : (formAddress m s).exit = s.exit := by rw [formAddress_eq]; rfl
@[simp] theorem formAddress_run (m : Mri) (s : State) : (formAddress m s).run = s.run := by rw [formAddress_eq]; rfl
@[simp] theorem formAddress_tty (m : Mri) (s : State) : (formAddress m s).tty = s.tty := by rw [formAddress_eq]; rfl
@[simp] theorem formAddress_tape (m : Mri) (s : State) : (formAddress m s).tape = s.tape := by rw [formAddress_eq]; rfl
@[simp] theorem formAddress_devices (m : Mri) (s : State) : (formAddress m s).devices = s.devices := by
  rw [formAddress_eq]; rfl
@[simp] theorem formAddress_others (m : Mri) (s : State) : (formAddress m s).others = s.others := by
  rw [formAddress_eq]; rfl
@[simp] theorem formAddress_env (m : Mri) (s : State) : (formAddress m s).env = s.env := by rw [formAddress_eq]; rfl

theorem formAddress_wf {m : Mri} {s : State} (h : s.mem.wf = true) : (formAddress m s).mem.wf = true := by
  show (incrementPointer m s).mem.wf = true
  unfold incrementPointer
  split
  · exact State.wf_writeMem _ _ h
  · exact h

end Sys2Proof.Machine
end

