-- ==== Sys2Proof/Laws/Exec.lean ====
section
/-! SUPPORT. What an instruction can do, said once: an instruction is a memory reference, a transfer, a group 1, a
group 2 or a group 3 operate instruction, and each class has its own equation. -/

namespace Sys2Proof.Machine

/-! ### The classes -/

theorem exec_bus {i : Instr} {sel : Selector} {p : Pulses} (h : busOf i = some (sel, p)) (s : State) :
    exec i s = .next (busTransfer sel p s) := by
  cases i <;> simp only [busOf, reduceCtorEq, Option.some.injEq, Prod.mk.injEq] at h <;>
    (obtain ⟨rfl, rfl⟩ := h; rfl)

theorem exec_group1 {i : Instr} {g : Group1} (h : group1Of i = some g) (s : State) :
    exec i s = .next (runGroup1 g s) := by
  cases i <;> simp only [group1Of, reduceCtorEq, Option.some.injEq] at h <;> (subst h; rfl)

theorem exec_group2 {i : Instr} {g : Group2} (h : group2Of i = some g) (s : State) :
    exec i s = .next (runGroup2 g s) := by
  cases i <;> simp only [group2Of, reduceCtorEq, Option.some.injEq] at h <;> (subst h; rfl)

theorem exec_opr3 (b : BitVec 7) (s : State) : exec (.opr3 b) s = .next (s.raise .unimplementedOperation) := rfl

/-- Every instruction is in one of the classes. -/
theorem Instr.classes (i : Instr) :
    (∃ m, mriOf i = some m) ∨ (∃ sel p, busOf i = some (sel, p)) ∨ (∃ g, group1Of i = some g) ∨
      (∃ g, group2Of i = some g) ∨ ∃ b, i = .opr3 b := by
  cases i <;> simp [mriOf, busOf, group1Of, group2Of]

/-! ### Operate -/

theorem runGroup1_eq (g : Group1) (s : State) :
    runGroup1 g s = { s with
      ac := (group1Apply g (s.ac, s.link)).1, link := (group1Apply g (s.ac, s.link)).2 } := rfl

theorem runGroup2_eq (g : Group2) (s : State) :
    runGroup2 g s = { s with
      pc := if group2Takes g (if g.cla then 0 else s.ac) s.link then s.pc + 1 else s.pc,
      ac := if g.osr then (if g.cla then 0 else s.ac) ||| s.sr else (if g.cla then 0 else s.ac),
      halt := s.halt || g.hlt } := by
  obtain ⟨c, ma, z, n, se, o, h⟩ := g
  cases c <;> cases o <;> cases h <;>
    simp only [runGroup2, State.skipIf, State.skip, Bool.false_eq_true, ↓reduceIte, Bool.or_false, Bool.or_true,
      State.setAc, State.setPc, State.setHalt] <;> split <;> rfl

/-! ### Sequences of group 1 instructions -/

/-- The state with another (AC, L). -/
def State.withPair (s : State) (x : Word × Bool) : State := { s with ac := x.1, link := x.2 }

theorem execAll_optional {i : Instr} {f : Word × Bool → Word × Bool}
    (h : ∀ s x, exec i (State.withPair s x) = .next (s.withPair (f x))) (c : Bool) (rest : List Instr) (s : State)
    (x : Word × Bool) :
    execAll ((if c then [i] else []) ++ rest) (s.withPair x) = execAll rest (s.withPair (if c then f x else x)) := by
  cases c <;> simp [execAll, h]

theorem execAll_rotates {i : Instr} {f : Word × Bool → Word × Bool}
    (h : ∀ s x, exec i (State.withPair s x) = .next (s.withPair (f x))) (c twice : Bool) (rest : List Instr) (s : State)
    (x : Word × Bool) :
    execAll (List.replicate (if c then (if twice then 2 else 1) else 0) i ++ rest) (s.withPair x) =
      execAll rest (s.withPair (if c then Alu.times twice f x else x)) := by
  cases c <;> cases twice <;> simp [execAll, h, List.replicate, Alu.times]

theorem execAll_plainSequence (q : Group1Plain) (rest : List Instr) (s : State) (x : Word × Bool) :
    execAll (plainSequence q ++ rest) (s.withPair x) =
      execAll rest (s.withPair (group1Apply (q.withRotate false false false) x)) := by
  unfold plainSequence
  simp only [List.append_assoc]
  rw [execAll_optional (f := fun x => (0, x.2)) (fun _ _ => rfl),
    execAll_optional (f := fun x => (x.1, false)) (fun _ _ => rfl),
    execAll_optional (f := fun x => (Alu.complement x.1, x.2)) (fun _ _ => rfl),
    execAll_optional (f := fun x => (x.1, !x.2)) (fun _ _ => rfl),
    execAll_optional (f := fun x => Alu.add x.1 1) (fun _ _ => rfl)]
  rfl

/-! ### Memory reference -/

theorem exec_and (m : Mri) (s : State) :
    exec (.and m) s = .next { formAddress m s with
      mb := (formAddress m s).readMem (formAddress m s).ma
      ac := s.ac &&& (formAddress m s).readMem (formAddress m s).ma } := by
  show Host.Outcome.next _ = _
  simp only [fetchOperand, State.setMb, State.setAc, formAddress_ac]

theorem exec_tad (m : Mri) (s : State) :
    exec (.tad m) s = .next { formAddress m s with
      mb := (formAddress m s).readMem (formAddress m s).ma
      ac := (Alu.add s.ac ((formAddress m s).readMem (formAddress m s).ma)).1
      link := (Alu.add s.ac ((formAddress m s).readMem (formAddress m s).ma)).2 } := by
  show Host.Outcome.next _ = _
  simp only [fetchOperand, State.setMb, State.setAc, State.setLink, formAddress_ac]

theorem exec_isz (m : Mri) (s : State) (v : Word) (hv : v = (formAddress m s).readMem (formAddress m s).ma + 1) :
    exec (.isz m) s = .next { formAddress m s with
      mb := v
      mem := (formAddress m s).mem.write (formAddress m s).ma v
      pc := if v = 0 then s.pc + 1 else s.pc } := by
  have hadd : (Alu.add ((formAddress m s).readMem (formAddress m s).ma) 1).1 = v := by rw [hv]; simp
  show Host.Outcome.next _ = _
  simp only [fetchOperand, State.setMb, hadd, State.skipIf]
  by_cases h : v = 0#12 <;> simp [h, State.skip, State.setPc, State.writeMem, State.setMem]

theorem exec_dca (m : Mri) (s : State) :
    exec (.dca m) s = .next { formAddress m s with
      mem := (formAddress m s).mem.write (formAddress m s).ma s.ac
      ac := 0 } := by
  show Host.Outcome.next _ = _
  simp [State.writeMem, State.setMem, State.setAc]

theorem exec_jms (m : Mri) (s : State) :
    exec (.jms m) s = .next { formAddress m s with
      mem := (formAddress m s).mem.write (formAddress m s).ma s.pc
      pc := (formAddress m s).ma + 1 } := by
  show Host.Outcome.next _ = _
  simp [State.writeMem, State.setMem, State.setPc]

theorem exec_jmp (m : Mri) (s : State) :
    exec (.jmp m) s = .next { formAddress m s with pc := (formAddress m s).ma } := rfl

/-- A memory-reference instruction changes PC, AC, L, MA, MB and memory, and keeps the canonical form. -/
theorem exec_mri {i : Instr} {m : Mri} (h : mriOf i = some m) (s : State) :
    ∃ t, exec i s = .next t ∧
      t = { s with pc := t.pc, ac := t.ac, link := t.link, ma := t.ma, mb := t.mb, mem := t.mem } ∧
      (s.mem.wf = true → t.mem.wf = true) ∧ ((∀ n, i ≠ .tad n) → t.link = s.link) := by
  have hf := formAddress_eq m s
  have hw : s.mem.wf = true → (formAddress m s).mem.wf = true := formAddress_wf
  cases i <;> simp only [mriOf, reduceCtorEq, Option.some.injEq] at h <;> subst h
  · refine ⟨_, exec_and _ s, ?_, hw, fun _ => ?_⟩
    · rw [hf]; rfl
    · simp
  · refine ⟨_, exec_tad _ s, ?_, hw, fun h => (h _ rfl).elim⟩
    rw [hf]; rfl
  · refine ⟨_, exec_isz _ s _ rfl, ?_, fun h => Memory.wf_write _ _ (hw h), fun _ => ?_⟩
    · rw [hf]; rfl
    · simp
  · refine ⟨_, exec_dca _ s, ?_, fun h => Memory.wf_write _ _ (hw h), fun _ => ?_⟩
    · rw [hf]; rfl
    · simp
  · refine ⟨_, exec_jms _ s, ?_, fun h => Memory.wf_write _ _ (hw h), fun _ => ?_⟩
    · rw [hf]; rfl
    · simp
  · refine ⟨_, exec_jmp _ s, ?_, hw, fun _ => ?_⟩
    · rw [hf]; rfl
    · simp

/-! ### All instructions -/

/-- What any instruction leaves alone, and how RUN, HALT and the environment can change. -/
structure ExecStep (i : Instr) (s t : State) : Prop where
  frame : t = { s with
    pc := t.pc, ac := t.ac, link := t.link, ma := t.ma, mb := t.mb, mem := t.mem, halt := t.halt, run := t.run,
    tty := t.tty, tape := t.tape, others := t.others, env := t.env }
  wf : s.mem.wf = true → t.mem.wf = true
  env : EnvStep s.env t.env
  halt : t.halt = (s.halt || (match group2Of i with | some g => g.hlt | none => false))
  link : (∀ m, i ≠ .tad m) → group1Of i = none → t.link = s.link
  noMemory : mriOf i = none → t.mem = s.mem ∧ t.ma = s.ma ∧ t.mb = s.mb
  run : t.run = s.run ∨
    (t.run = .fault .deviceIO s.ma s.ir ∧ ∃ sel p, busOf i = some (sel, p)) ∨
    (t = { s with run := .fault .unimplementedOperation s.ma s.ir } ∧ ∃ b, i = .opr3 b)

/-- Every instruction answers a next state, and this is all it can do. -/
theorem exec_step (i : Instr) (s : State) : ∃ t, exec i s = .next t ∧ ExecStep i s t := by
  have g2mri : ∀ m, mriOf i = some m → group2Of i = none := by cases i <;> simp [mriOf, group2Of]
  have g2bus : ∀ q, busOf i = some q → group2Of i = none := by cases i <;> simp [busOf, group2Of]
  have g2g1 : ∀ q, group1Of i = some q → group2Of i = none := by cases i <;> simp [group1Of, group2Of]
  rcases Instr.classes i with ⟨m, h⟩ | ⟨sel, p, h⟩ | ⟨g, h⟩ | ⟨g, h⟩ | ⟨b, rfl⟩
  · obtain ⟨t, he, hf, hw, hl⟩ := exec_mri h s
    refine ⟨t, he, ?_, hw, ?_, ?_, fun h _ => hl h, by simp [h], .inl ?_⟩
    · rw [hf]
    · rw [hf]; exact EnvStep.refl _
    · rw [hf, g2mri m h]; simp
    · rw [hf]
  · have hb := busTransfer_step sel p s
    have hf := hb.frame
    refine ⟨_, exec_bus h s, ?_, ?_, hb.env, ?_, fun _ _ => ?_, fun _ => ⟨?_, ?_, ?_⟩, ?_⟩
    · rw [hf]
    · rw [hf]; exact id
    · rw [hf, g2bus _ h]; simp
    · rw [hf]
    · rw [hf]
    · rw [hf]
    · rw [hf]
    · exact hb.run.imp id fun h' => .inl ⟨h', sel, p, h⟩
  · refine ⟨_, exec_group1 h s, rfl, id, EnvStep.refl _, ?_, by simp [h], fun _ => ⟨rfl, rfl, rfl⟩, .inl rfl⟩
    rw [g2g1 g h]; simp [runGroup1_eq]
  · refine ⟨_, exec_group2 h s, ?_⟩
    rw [runGroup2_eq]
    exact ⟨rfl, id, EnvStep.refl _, by rw [h], fun _ _ => rfl, fun _ => ⟨rfl, rfl, rfl⟩, .inl rfl⟩
  · exact ⟨_, rfl, rfl, id, EnvStep.refl _, by simp [group2Of, State.raise, State.setRun], fun _ _ => rfl,
      fun _ => ⟨rfl, rfl, rfl⟩, .inr (.inr ⟨rfl, b, rfl⟩)⟩

end Sys2Proof.Machine
end

