-- ==== Sys2Proof/Laws/Loader.lean ====
section
/-! SUPPORT. The loaders: every image they build is canonical, a rendered token reads back, and the blocks of a RIM
stream load one after the other. -/

namespace Sys2Proof.Machine

/-! ### Canonical images -/

theorem applyTokens_wf {wa : Nat} {m image : Memory} {ts : List Nat} (hm : m.wf = true)
    (h : applyTokens wa m ts = .ok image) : image.wf = true := by
  induction ts generalizing wa m with
  | nil =>
    obtain rfl : m = image := by simpa [applyTokens] using h
    exact hm
  | cons t rest ih =>
    simp only [applyTokens] at h
    split at h
    · exact ih hm h
    · split at h
      · exact ih (Memory.wf_write _ _ hm) h
      · cases h

theorem applyBlocks_wf (m image : Memory) (bs : List Byte) (hm : m.wf = true) (h : applyBlocks m bs = .ok image) :
    image.wf = true := by
  induction m, bs using applyBlocks.induct with
  | case1 m =>
    obtain rfl : m = image := by simpa [applyBlocks] using h
    exact hm
  | case2 m b1 b2 b3 rest =>
    obtain rfl : m = image := by simpa [applyBlocks] using h
    exact hm
  | case3 m b0 b1 b2 b3 rest h0 h6 ih =>
    simp only [applyBlocks, h0, h6, ↓reduceIte] at h
    exact ih (Memory.wf_write _ _ hm) h
  | case4 m b0 b1 b2 b3 rest h0 h6 =>
    simp only [applyBlocks, if_neg h0, if_neg h6, reduceCtorEq] at h
  | case5 m rest hs =>
    rw [applyBlocks.eq_3 m rimLeader rest (by intro b1 b2 b3 r hr; exact hs b1 b2 b3 r hr)] at h
    obtain rfl : m = image := by simpa using h
    exact hm
  | case6 m b0 rest hs h0 =>
    rw [applyBlocks.eq_3 m b0 rest (by intro b1 b2 b3 r hr; exact hs b1 b2 b3 r hr)] at h
    simp [h0] at h

theorem loadObject_wf {text : List Char} {image : Memory} (h : loadObject text = .ok image) : image.wf = true := by
  unfold loadObject at h
  split at h
  · exact applyTokens_wf rfl h
  · cases h

/-- Every image a loader builds is in canonical form. -/
theorem load_wf {file : ProgramFile} {image : Memory} (h : load file = .ok image) : image.wf = true := by
  unfold load at h
  split at h
  · cases h
  · split at h
    · exact applyBlocks_wf _ _ _ rfl h
    · exact loadObject_wf h

/-! ### Tokens read back -/

/-- The digits of a token, without its newline. -/
def tokenDigits (n : Nat) : List Char :=
  [Char.ofNat (48 + n / 4096 % 8), Char.ofNat (48 + n / 512 % 8), Char.ofNat (48 + n / 64 % 8),
   Char.ofNat (48 + n / 8 % 8), Char.ofNat (48 + n % 8)]

theorem octalDigit_toNat {d : Nat} (h : d < 8) : (Char.ofNat (48 + d)).toNat = 48 + d := by
  interval_cases d <;> rfl

theorem splitTokens_renderToken (n : Nat) (rest : List Char) :
    splitTokens [] (renderToken n ++ rest) = tokenDigits n :: splitTokens [] rest := by
  have hd : ∀ k : Nat, isSeparator (Char.ofNat (48 + k % 8)) = false := by
    intro k
    rw [isSeparator, octalDigit_toNat (Nat.mod_lt _ (by omega))]
    simp; omega
  have hn : isSeparator (Char.ofNat 10) = true := rfl
  simp [renderToken, tokenDigits, splitTokens, hd, hn]

theorem splitTokens_renderTokens (ns : List Nat) : splitTokens [] (ns.flatMap renderToken) = ns.map tokenDigits := by
  induction ns with
  | nil => rfl
  | cons n rest ih => rw [List.flatMap_cons, splitTokens_renderToken, ih, List.map_cons]

theorem parseDigits_tokenDigits {n : Nat} (h : n < 32768) : parseDigits 0 (tokenDigits n) = some n := by
  have hd : ∀ k : Nat, (Char.ofNat (48 + k % 8)).toNat = 48 + k % 8 := fun k =>
    octalDigit_toNat (Nat.mod_lt _ (by omega))
  have hr : ∀ k : Nat, (decide (48 ≤ 48 + k % 8) && decide (48 + k % 8 ≤ 55)) = true := by
    intro k; simp; omega
  simp only [tokenDigits, parseDigits, hd, hr, ↓reduceIte]
  congr 1
  omega

/-- A rendered token list reads back as it was. -/
theorem parseTokens_renderTokens {ns : List Nat} (h : ∀ n ∈ ns, n < 32768) :
    parseTokens (splitTokens [] (ns.flatMap renderToken)) = some ns := by
  rw [splitTokens_renderTokens]
  induction ns with
  | nil => rfl
  | cons n rest ih =>
    have hn := parseDigits_tokenDigits (h n (by simp))
    have hr := ih fun k hk => h k (by simp [hk])
    simp [parseTokens, hn, hr]

/-! ### Writing past the last entry -/

theorem Memory.write_append {m : Memory} {a : Nat} {v : Word} (ha : a < Config.memoryWords)
    (hv : v ≠ Config.unlisted) (h : ∀ e ∈ m, e.1 < a) : m.write (BitVec.ofNat 12 a) v = m ++ [(a, v)] := by
  have hnat : (BitVec.ofNat 12 a).toNat = a := by
    rw [BitVec.toNat_ofNat]
    exact Nat.mod_eq_of_lt (by simpa [Config.memoryWords] using ha)
  unfold Memory.write
  rw [if_neg hv, hnat]
  clear hnat
  induction m with
  | nil => rfl
  | cons e rest ih =>
    obtain ⟨b, u⟩ := e
    have hb : b < a := h (b, u) (by simp)
    have hrest := ih fun e he => h e (by simp [he])
    simp only [Memory.erase, Nat.ne_of_lt hb, ↓reduceIte, Memory.insert, Nat.not_lt.mpr (Nat.le_of_lt hb), hrest,
      List.cons_append]

/-! ### Blocks -/

/-- The four bytes of a block. -/
abbrev Block := Byte × Byte × Byte × Byte

/-- A block whose lead byte is marked writes its word, and the next block is read. -/
theorem applyBlocks_marked (m : Memory) (b0 b1 b2 b3 : Byte) (rest : List Byte) (h : b0.getLsbD 6 = true) :
    applyBlocks m (b0 :: b1 :: b2 :: b3 :: rest) =
      applyBlocks (m.write (rimWord b0 b1) (rimWord b2 b3)) rest := by
  have h0 : b0 ≠ rimLeader := by
    rintro rfl
    simp [rimLeader] at h
  simp only [applyBlocks, if_neg h0, if_pos h]

/-- Marked blocks load one after the other. -/
theorem applyBlocks_append (m : Memory) (blocks : List Block) (rest : List Byte)
    (h : ∀ b ∈ blocks, b.1.getLsbD 6 = true) :
    applyBlocks m (blocks.flatMap (fun b => [b.1, b.2.1, b.2.2.1, b.2.2.2]) ++ rest) =
      applyBlocks (blocks.foldl (fun image b => image.write (rimWord b.1 b.2.1) (rimWord b.2.2.1 b.2.2.2)) m) rest := by
  induction blocks generalizing m with
  | nil => rfl
  | cons b later ih =>
    simp only [List.flatMap_cons, List.cons_append, List.nil_append, List.foldl_cons]
    rw [applyBlocks_marked _ _ _ _ _ _ (h b (by simp))]
    exact ih _ fun c hc => h c (by simp [hc])

/-- The word of two bytes, as a number. -/
theorem rimWord_eq (high low : Byte) : rimWord high low = BitVec.ofNat 12 (high.toNat % 64 * 64 + low.toNat % 64) := by
  have h : ∀ x : Byte, (x &&& 0o77#8).toNat = x.toNat % 64 := by
    intro x
    rw [BitVec.toNat_and]
    exact Nat.and_two_pow_sub_one_eq_mod x.toNat 6
  have h1 := Nat.mod_lt high.toNat (show 64 > 0 by omega)
  have h2 := Nat.mod_lt low.toNat (show 64 > 0 by omega)
  apply BitVec.eq_of_toNat_eq
  rw [rimWord, BitVec.toNat_or, BitVec.toNat_shiftLeft, BitVec.toNat_setWidth, BitVec.toNat_setWidth, h, h,
    BitVec.toNat_ofNat]
  generalize high.toNat % 64 = a at h1 ⊢
  generalize low.toNat % 64 = b at h2 ⊢
  have hor := Nat.two_pow_add_eq_or_of_lt (i := 6) (b := b) (by omega) a
  rw [Nat.shiftLeft_eq, Nat.mod_eq_of_lt (a := a) (by omega), Nat.mod_eq_of_lt (a := b) (by omega),
    Nat.mod_eq_of_lt (a := a * 2 ^ 6) (by omega), Nat.mul_comm a, ← hor]
  omega

/-- The leader is skipped up to the first byte that is no leader byte. -/
theorem dropWhile_leader (n : Nat) (bs : List Byte) (h : bs.head? ≠ some rimLeader) :
    (List.replicate n rimLeader ++ bs).dropWhile (· = rimLeader) = bs := by
  induction n with
  | zero =>
    cases bs with
    | nil => rfl
    | cons b rest =>
      have : b ≠ rimLeader := by simpa using h
      simp [this]
  | succ k ih => simpa [List.replicate_succ] using ih

end Sys2Proof.Machine
end

