-- ==== Sys2Proof/Laws/PerInstr.lean ====
section
/-! SUPPORT. Per instruction: the word of an instruction is one of its row of spec/opcode_table.json, well formed or
not. -/

namespace Sys2Proof.Laws.EncodeInRow

/-- The encoded word has the row's fixed bits (30_encoding R93). -/
def Statement (i : Instr) : Prop := (rowOf i).covers (encode i) = true

theorem covers_memoryReference : ∀ (k : Fin 6) (x : BitVec 9),
    (Row.mk 0o7000 (BitVec.ofNat 12 (k.val * 512))).covers (BitVec.ofNat 3 k.val ++ x) = true := by
  decide +kernel

theorem covers_transfer : ∀ (sel : Selector) (x : BitVec 3), (Row.mk 0o7000 0o6000).covers (6#3 ++ sel ++ x) = true := by
  decide +kernel

theorem covers_group1 : ∀ x : BitVec 8, (Row.mk 0o7400 0o7000).covers (0b1110#4 ++ x) = true := by decide +kernel

theorem covers_group2 : ∀ x : BitVec 7, (Row.mk 0o7401 0o7400).covers (0b1111#4 ++ x ++ 0#1) = true := by decide +kernel

theorem covers_group3 : ∀ x : BitVec 7, (Row.mk 0o7401 0o7401).covers (0b1111#4 ++ x ++ 1#1) = true := by decide +kernel

theorem covers_selector : ∀ x : BitVec 3,
    (Row.mk 0o7770 0o6010).covers (0o601#9 ++ x) = true ∧ (Row.mk 0o7770 0o6020).covers (0o602#9 ++ x) = true ∧
    (Row.mk 0o7770 0o6030).covers (0o603#9 ++ x) = true ∧ (Row.mk 0o7770 0o6040).covers (0o604#9 ++ x) = true ∧
    (Row.mk 0o7000 0o6000).covers (0o600#9 ++ x) = true := by
  decide +kernel

theorem covers_bit1Alone : ∀ a b c d e : Bool, Statement (.opr1Bit1Alone ⟨a, b, c, d, e⟩) := by
  unfold Statement
  decide

theorem covers_bothRotates : ∀ a b c d e t : Bool, Statement (.opr1BothRotates ⟨a, b, c, d, e⟩ t) := by
  unfold Statement
  decide

theorem and (m : Mri) : Statement (.and m) := covers_memoryReference 0 m.bits
theorem tad (m : Mri) : Statement (.tad m) := covers_memoryReference 1 m.bits
theorem isz (m : Mri) : Statement (.isz m) := covers_memoryReference 2 m.bits
theorem dca (m : Mri) : Statement (.dca m) := covers_memoryReference 3 m.bits
theorem jms (m : Mri) : Statement (.jms m) := covers_memoryReference 4 m.bits
theorem jmp (m : Mri) : Statement (.jmp m) := covers_memoryReference 5 m.bits
theorem iot (sel : Selector) (p : Pulses) : Statement (.iot sel p) := covers_transfer sel p.bits
theorem opr1 (g : Group1) : Statement (.opr1 g) := covers_group1 g.bits
theorem opr2 (g : Group2) : Statement (.opr2 g) := covers_group2 g.bits
theorem opr3 (b : BitVec 7) : Statement (.opr3 b) := covers_group3 b
theorem opr1Bit1Alone (q : Group1Plain) : Statement (.opr1Bit1Alone q) := covers_bit1Alone _ _ _ _ _
theorem opr1BothRotates (q : Group1Plain) (twice : Bool) : Statement (.opr1BothRotates q twice) :=
  covers_bothRotates _ _ _ _ _ _
theorem iotReaderOtherPulseSets (p : Pulses) : Statement (.iotReaderOtherPulseSets p) := (covers_selector p.bits).1
theorem iotPunchOtherPulseSets (p : Pulses) : Statement (.iotPunchOtherPulseSets p) := (covers_selector p.bits).2.1
theorem iotKeyboardOtherPulseSets (p : Pulses) : Statement (.iotKeyboardOtherPulseSets p) := (covers_selector p.bits).2.2.1
theorem iotPrinterOtherPulseSets (p : Pulses) : Statement (.iotPrinterOtherPulseSets p) := (covers_selector p.bits).2.2.2.1
theorem iotUnclaimedSelector (p : Pulses) : Statement (.iotUnclaimedSelector p) := (covers_selector p.bits).2.2.2.2
theorem nop : Statement .nop := rfl
theorem cla : Statement .cla := rfl
theorem cll : Statement .cll := rfl
theorem cma : Statement .cma := rfl
theorem cml : Statement .cml := rfl
theorem iac : Statement .iac := rfl
theorem rar : Statement .rar := rfl
theorem ral : Statement .ral := rfl
theorem rtr : Statement .rtr := rfl
theorem rtl : Statement .rtl := rfl
theorem nopGroup2 : Statement .nopGroup2 := rfl
theorem claGroup2 : Statement .claGroup2 := rfl
theorem sma : Statement .sma := rfl
theorem sza : Statement .sza := rfl
theorem snl : Statement .snl := rfl
theorem spa : Statement .spa := rfl
theorem sna : Statement .sna := rfl
theorem szl : Statement .szl := rfl
theorem skp : Statement .skp := rfl
theorem osr : Statement .osr := rfl
theorem hlt : Statement .hlt := rfl
theorem rsf : Statement .rsf := rfl
theorem rrb : Statement .rrb := rfl
theorem rfc : Statement .rfc := rfl
theorem rrbRfc : Statement .rrbRfc := rfl
theorem psf : Statement .psf := rfl
theorem pcf : Statement .pcf := rfl
theorem ppc : Statement .ppc := rfl
theorem pls : Statement .pls := rfl
theorem ksf : Statement .ksf := rfl
theorem kcc : Statement .kcc := rfl
theorem krs : Statement .krs := rfl
theorem krb : Statement .krb := rfl
theorem tsf : Statement .tsf := rfl
theorem tcf : Statement .tcf := rfl
theorem tpc : Statement .tpc := rfl
theorem tls : Statement .tls := rfl

end Sys2Proof.Laws.EncodeInRow
end

