-- ==== Sys2Proof/Laws/Step.lean ====
section
/-! SUPPORT. What a step can do around the instruction it runs: run control, the switch sample, fetch. -/

namespace Sys2Proof.Machine

/-- A cycle runs the instruction the word at PC decodes to. -/
theorem cycle_eq {s : State} {i : Instr} (h : decodeWord (s.readMem s.pc) = .ok i) :
    cycle s = exec i (fetch (sampleSwitches s)) := by
  have hir : (fetch (sampleSwitches s)).ir = s.readMem s.pc := rfl
  unfold cycle executeFetched
  rw [hir, h]

theorem sampleSwitches_frame (s : State) :
    sampleSwitches s = { s with sr := (sampleSwitches s).sr, env := (sampleSwitches s).env } := rfl

theorem sampleSwitches_env (s : State) : EnvStep s.env (sampleSwitches s).env :=
  ⟨rfl, List.prefix_refl _, List.prefix_refl _, id⟩

/-- A cycle answers a next state: the instruction at PC and what it did. -/
theorem cycle_step (s : State) : ∃ i t, decodeWord (s.readMem s.pc) = .ok i ∧ cycle s = .next t ∧
    ExecStep i (fetch (sampleSwitches s)) t := by
  obtain ⟨i, hi⟩ := decodeWord_ok (s.readMem s.pc)
  obtain ⟨t, ht, hx⟩ := exec_step i (fetch (sampleSwitches s))
  exact ⟨i, t, hi, (cycle_eq hi).trans ht, hx⟩

theorem runControl_frame (s : State) :
    runControl s = { s with
      env := s.env.dropKey, sstep := (runControl s).sstep, halt := (runControl s).halt, run := (runControl s).run } := by
  simp only [runControl, enterWait, force, arm]
  split <;> split <;> split <;> (try split) <;> rfl

theorem poll_frame (s : State) :
    poll s = { s with
      env := s.env.dropKey, sstep := (poll s).sstep, halt := (poll s).halt, run := (poll s).run } := by
  simp only [poll]
  split <;> rfl

theorem Environment.dropKey_step (e : Environment) : EnvStep e e.dropKey :=
  ⟨rfl, List.prefix_refl _, List.prefix_refl _, id⟩

theorem step_running {s : State} (h : s.run = .running) : step s = proceed (runControl s) := by
  unfold step
  rw [h]

theorem step_waiting {s : State} (h : s.run = .waiting) : step s = proceed (poll s) := by
  unfold step
  rw [h]

/-- The word of an I/O transfer has opcode 6. -/
theorem opcode_of_bus {w : Word} {i : Instr} (h : decodeWord w = .ok i) {q : Selector × Pulses} (hb : busOf i = some q) :
    w &&& 0o7000#12 = 0o6000#12 := by
  have ho := (decoded h).opcode
  cases i <;> first | (simp [rowOf] at ho; exact ho) | (simp [busOf] at hb)

/-- The next word a step fetches is the one placed. -/
theorem withFetchWord_fetches (s : State) (nbits w : Nat) :
    (s.withFetchWord nbits w).readMem (s.withFetchWord nbits w).pc = BitVec.ofNat 12 w :=
  Memory.read_write_same _ _ _

end Sys2Proof.Machine
end

