-- ==== Sys2Proof/Tests/Slice0.lean ====
section
/-! SUPPORT. Tests: what WellFormed refuses, the decoding of a written word for every constructor, one-step vectors
from 95_test_vectors, run control, the loaders, and for every statement with hypotheses a witness that meets them. -/

namespace Sys2Proof.Tests

open Sys2Proof.Machine

/-! ### WellFormed refuses -/

theorem test_iot_selector_0_refused : WellFormed (.iot 0o00 { iop1 := true }) = false := by decide
theorem test_iot_selector_4_refused : WellFormed (.iot 0o04 { iop1 := true }) = false := by decide
theorem test_opr1_named_word_refused : WellFormed (.opr1 { rar := true, twice := true }) = false := by decide
theorem test_opr1_bit1_alone_refused : WellFormed (.opr1 { cla := true, twice := true }) = false := by decide
theorem test_opr1_both_rotates_refused : WellFormed (.opr1 { rar := true, ral := true }) = false := by decide
theorem test_opr2_named_word_refused : WellFormed (.opr2 { sma := true, sense := true }) = false := by decide
theorem test_reader_named_set_refused : WellFormed (.iotReaderOtherPulseSets { iop4 := true }) = false := by decide
theorem test_punch_named_set_refused : WellFormed (.iotPunchOtherPulseSets { iop2 := true }) = false := by decide
theorem test_keyboard_named_set_refused : WellFormed (.iotKeyboardOtherPulseSets { iop1 := true }) = false := by decide
theorem test_printer_named_set_refused :
    WellFormed (.iotPrinterOtherPulseSets { iop4 := true, iop2 := true }) = false := by decide

/-! ### Decoding, the words written bit by bit from 30_encoding R91 to R99 -/

/-- R91: op (3 bits), I, P, offset (7 bits). -/
theorem test_decode_memory_reference :
    decodeWord 0b000_0_0_0101000#12 = .ok (.and ⟨false, false, 0o50⟩) ∧
    decodeWord 0b001_1_0_0001010#12 = .ok (.tad ⟨true, false, 0o12⟩) ∧
    decodeWord 0b010_0_1_0000110#12 = .ok (.isz ⟨false, true, 0o06⟩) ∧
    decodeWord 0b011_1_1_1111111#12 = .ok (.dca ⟨true, true, 0o177⟩) ∧
    decodeWord 0b100_0_1_0010000#12 = .ok (.jms ⟨false, true, 0o20⟩) ∧
    decodeWord 0b101_1_1_0010000#12 = .ok (.jmp ⟨true, true, 0o20⟩) := by decide

/-- R95: 110, selector (6 bits), IOP4, IOP2, IOP1. -/
theorem test_decode_other_transfers :
    decodeWord 0b110_001000_1_1_1#12 = .ok (.iot 0o10 ⟨true, true, true⟩) ∧
    decodeWord 0b110_000101_0_0_1#12 = .ok (.iot 0o05 ⟨false, false, true⟩) ∧
    decodeWord 0b110_111111_1_0_0#12 = .ok (.iot 0o77 ⟨true, false, false⟩) ∧
    decodeWord 0b110_000000_1_1_0#12 = .ok (.iotUnclaimedSelector ⟨true, true, false⟩) := by decide

/-- R95, R99: the reader and the punch. -/
theorem test_decode_tape :
    decodeWord 0b110_000001_0_0_1#12 = .ok .rsf ∧ decodeWord 0b110_000001_0_1_0#12 = .ok .rrb ∧
    decodeWord 0b110_000001_1_0_0#12 = .ok .rfc ∧ decodeWord 0b110_000001_1_1_0#12 = .ok .rrbRfc ∧
    decodeWord 0b110_000010_0_0_1#12 = .ok .psf ∧ decodeWord 0b110_000010_0_1_0#12 = .ok .pcf ∧
    decodeWord 0b110_000010_1_0_0#12 = .ok .ppc ∧ decodeWord 0b110_000010_1_1_0#12 = .ok .pls ∧
    decodeWord 0b110_000001_0_1_1#12 = .ok (.iotReaderOtherPulseSets ⟨false, true, true⟩) ∧
    decodeWord 0b110_000010_1_0_1#12 = .ok (.iotPunchOtherPulseSets ⟨true, false, true⟩) := by decide

/-- R95, R99: the keyboard and the printer. -/
theorem test_decode_teletype :
    decodeWord 0b110_000011_0_0_1#12 = .ok .ksf ∧ decodeWord 0b110_000011_0_1_0#12 = .ok .kcc ∧
    decodeWord 0b110_000011_1_0_0#12 = .ok .krs ∧ decodeWord 0b110_000011_1_1_0#12 = .ok .krb ∧
    decodeWord 0b110_000100_0_0_1#12 = .ok .tsf ∧ decodeWord 0b110_000100_0_1_0#12 = .ok .tcf ∧
    decodeWord 0b110_000100_1_0_0#12 = .ok .tpc ∧ decodeWord 0b110_000100_1_1_0#12 = .ok .tls ∧
    decodeWord 0b110_000011_0_0_0#12 = .ok (.iotKeyboardOtherPulseSets ⟨false, false, false⟩) ∧
    decodeWord 0b110_000100_1_1_1#12 = .ok (.iotPrinterOtherPulseSets ⟨true, true, true⟩) := by decide

/-- R97: 111 0, CLA, CLL, CMA, CML, RAR, RAL, bit 1, IAC. -/
theorem test_decode_group1 :
    decodeWord 0b111_0_0_0_0_0_0_0_0_0#12 = .ok .nop ∧ decodeWord 0b111_0_1_0_0_0_0_0_0_0#12 = .ok .cla ∧
    decodeWord 0b111_0_0_1_0_0_0_0_0_0#12 = .ok .cll ∧ decodeWord 0b111_0_0_0_1_0_0_0_0_0#12 = .ok .cma ∧
    decodeWord 0b111_0_0_0_0_1_0_0_0_0#12 = .ok .cml ∧ decodeWord 0b111_0_0_0_0_0_0_0_0_1#12 = .ok .iac ∧
    decodeWord 0b111_0_0_0_0_0_1_0_0_0#12 = .ok .rar ∧ decodeWord 0b111_0_0_0_0_0_0_1_0_0#12 = .ok .ral ∧
    decodeWord 0b111_0_0_0_0_0_1_0_1_0#12 = .ok .rtr ∧ decodeWord 0b111_0_0_0_0_0_0_1_1_0#12 = .ok .rtl ∧
    decodeWord 0b111_0_0_0_0_0_0_0_1_0#12 = .ok (.opr1Bit1Alone {}) ∧
    decodeWord 0b111_0_1_0_0_0_1_1_1_0#12 = .ok (.opr1BothRotates { cla := true } true) ∧
    decodeWord 0b111_0_0_0_1_0_0_0_0_1#12 = .ok (.opr1 { cma := true, iac := true }) := by decide

/-- R98: 111 1, CLA, SMA, SZA, SNL, sense, OSR, HLT, 0; and group 3, whose bit 0 is 1. -/
theorem test_decode_group2_and_3 :
    decodeWord 0b111_1_0_0_0_0_0_0_0_0#12 = .ok .nopGroup2 ∧ decodeWord 0b111_1_1_0_0_0_0_0_0_0#12 = .ok .claGroup2 ∧
    decodeWord 0b111_1_0_1_0_0_0_0_0_0#12 = .ok .sma ∧ decodeWord 0b111_1_0_0_1_0_0_0_0_0#12 = .ok .sza ∧
    decodeWord 0b111_1_0_0_0_1_0_0_0_0#12 = .ok .snl ∧ decodeWord 0b111_1_0_1_0_0_1_0_0_0#12 = .ok .spa ∧
    decodeWord 0b111_1_0_0_1_0_1_0_0_0#12 = .ok .sna ∧ decodeWord 0b111_1_0_0_0_1_1_0_0_0#12 = .ok .szl ∧
    decodeWord 0b111_1_0_0_0_0_1_0_0_0#12 = .ok .skp ∧ decodeWord 0b111_1_0_0_0_0_0_1_0_0#12 = .ok .osr ∧
    decodeWord 0b111_1_0_0_0_0_0_0_1_0#12 = .ok .hlt ∧
    decodeWord 0b111_1_1_0_0_0_0_1_0_0#12 = .ok (.opr2 { cla := true, osr := true }) ∧
    decodeWord 0b111_1_1_0_0_0_0_0_0_1#12 = .ok (.opr3 0b1000000) := by decide

/-- A number of more than 12 bits is no instruction (R90). -/
theorem test_decode_too_wide : decodeBits 0o10000 = .error .tooWide ∧ decodeTableWord 16 0o10000 = none := by decide

/-! ### One step, from 95_test_vectors -/

/-- An environment that lists the next draws: no key, switches at 0, nothing typed, no failure. -/
def quiet : Environment :=
  { keys := [.none], switches := [0], kbdArrivals := [[], []], rdrFails := [false], punFails := [false] }

/-- The instruction stands at 0o0300, the devices are the default ones in reset state. -/
def base : State := { State.reset with pc := 0o300, env := quiet }

/-- The outcome's state meets a test. -/
def answers (r : Result) (p : State → Bool) : Bool :=
  match r with
  | .next t => p t
  | .fault _ => false
  | .refused _ => false

/-- One step of a word at PC, with no key and the switches where they stand, gives a state that meets a test. -/
def gives (s : State) (w : Word) (p : State → Bool) : Bool := answers (step (s.withFetchWord 12 w.toNat)) p

/-! V-ALU -/

theorem test_add_overflow : Alu.add 0o3777 0o0001 = (0o4000, true) ∧ Alu.add 0o4000 0o7777 = (0o3777, true) := by decide
theorem test_add_no_overflow : Alu.add 0o7777 0o0001 = (0, false) ∧ Alu.add 0o4000 0o4000 = (0, true) := by decide
theorem test_complement : Alu.complement 0 = 0o7777 ∧ Alu.complement 0o5252 = 0o2525 := by decide
theorem test_rotates :
    Alu.rotateRight (0o5252, true) = (0o6525, false) ∧ Alu.rotateLeft (0o5252, true) = (0o2525, true) := by decide

/-! V-FETCH -/

theorem test_fetch_current_page :
    gives { (base.writeMem 0o5017 0o0042) with pc := 0o5123 } 0o1217
      (fun t => t.pc = 0o5124 && t.ma = 0o5017 && t.mb = 0o0042 && t.ac = 0o0042) = true := by decide
theorem test_fetch_autoincrement_wraps :
    gives ((base.writeMem 0o12 0o7777).writeMem 0 0o55) 0o1412
      (fun t => t.readMem 0o12 = 0 && t.ma = 0 && t.ac = 0o55) = true := by decide
theorem test_fetch_no_autoincrement_at_20 :
    gives ((base.writeMem 0o20 0o500).writeMem 0o500 0o123) 0o1420
      (fun t => t.readMem 0o20 = 0o500 && t.ac = 0o123) = true := by decide
theorem test_fetch_no_autoincrement_on_other_page :
    gives ((base.writeMem 0o210 0o500).writeMem 0o500 0o123) 0o1610
      (fun t => t.readMem 0o210 = 0o500 && t.ma = 0o500) = true := by decide

/-! V-MRI -/

theorem test_and : gives { (base.writeMem 0o50 0o1234) with ac := 0o7070, link := true } 0o0050
    (fun t => t.ac = 0o1030 && t.link) = true := by decide
theorem test_tad_sets_link : gives { (base.writeMem 0o50 1) with ac := 0o3777 } 0o1050
    (fun t => t.ac = 0o4000 && t.link) = true := by decide
theorem test_tad_clears_link : gives { (base.writeMem 0o50 1) with ac := 0o7777, link := true } 0o1050
    (fun t => t.ac = 0 && !t.link) = true := by decide
theorem test_isz_skips : gives { (base.writeMem 0o50 0o7777) with link := true } 0o2050
    (fun t => t.readMem 0o50 = 0 && t.pc = 0o302 && t.link) = true := by decide
theorem test_isz_discards_carry : gives (base.writeMem 0o50 0o3777) 0o2050
    (fun t => t.readMem 0o50 = 0o4000 && !t.link && t.pc = 0o301) = true := by decide
theorem test_dca : gives { (base.writeMem 0o50 0o7777) with ac := 0o1234 } 0o3050
    (fun t => t.readMem 0o50 = 0o1234 && t.ac = 0 && t.mb = 0o300) = true := by decide
theorem test_jms_at_top : gives { base with pc := 0o7777 } 0o4050
    (fun t => t.readMem 0o50 = 0 && t.pc = 0o51) = true := by decide
theorem test_jms_wraps : gives (base.writeMem 0o20 0o7777) 0o4420
    (fun t => t.readMem 0o7777 = 0o301 && t.pc = 0) = true := by decide
theorem test_jmp_autoincrements : gives (base.writeMem 0o10 0o477) 0o5410
    (fun t => t.readMem 0o10 = 0o500 && t.pc = 0o500) = true := by decide

/-! V-OPR1 -/

/-- A group 1 vector: AC and L before and after. -/
def group1Gives (w : Word) (before after : Word × Bool) : Bool :=
  gives { base with ac := before.1, link := before.2 } w
    (fun t => t.ac = after.1 && t.link == after.2 && t.pc = 0o301)

theorem test_nop : group1Gives 0o7000 (0o1234, true) (0o1234, true) = true := by decide
theorem test_cla : group1Gives 0o7200 (0o1234, true) (0, true) = true := by decide
theorem test_cll : group1Gives 0o7100 (0o1234, true) (0o1234, false) = true := by decide
theorem test_cma : group1Gives 0o7040 (0o5252, false) (0o2525, false) = true := by decide
theorem test_cml : group1Gives 0o7020 (0, false) (0, true) = true := by decide
theorem test_iac_overflow : group1Gives 0o7001 (0o3777, false) (0o4000, true) = true := by decide
theorem test_iac_clears_link : group1Gives 0o7001 (0o7777, true) (0, false) = true := by decide
theorem test_rar : group1Gives 0o7010 (0o0001, false) (0, true) = true := by decide
theorem test_ral : group1Gives 0o7004 (0o4000, false) (0, true) = true := by decide
theorem test_rtr : group1Gives 0o7012 (0o0003, false) (0o4000, true) = true := by decide
theorem test_rtl : group1Gives 0o7006 (0o6000, false) (0o0001, true) = true := by decide
theorem test_bit1_alone : group1Gives 0o7002 (0o1234, true) (0o1234, true) = true := by decide
theorem test_both_rotates : group1Gives 0o7014 (0o1234, true) (0o1234, true) = true := by decide
theorem test_both_rotates_all_bits : group1Gives 0o7377 (0o1234, false) (0, false) = true := by decide
theorem test_negation_overflow : group1Gives 0o7041 (0o4000, false) (0o4000, true) = true := by decide
theorem test_cll_iac_rar : group1Gives 0o7111 (0, true) (0, true) = true := by decide

/-! V-OPR2 and V-OPR3 -/

/-- A group 2 vector: AC, L and SR before; PC, AC and HALT after. -/
def group2Gives (w ac : Word) (link : Bool) (sr pc ac' : Word) (halt : Bool) : Bool :=
  gives { base with ac := ac, link := link, sr := sr } w
    (fun t => t.pc = pc && t.ac = ac' && t.link == link && t.halt == halt)

theorem test_sma : group2Gives 0o7500 0o4000 false 0 0o302 0o4000 false = true := by decide
theorem test_sza : group2Gives 0o7440 1 false 0 0o301 1 false = true := by decide
theorem test_snl : group2Gives 0o7420 0 true 0 0o302 0 false = true := by decide
theorem test_spa : group2Gives 0o7510 0 false 0 0o302 0 false = true := by decide
theorem test_sna : group2Gives 0o7450 0 false 0 0o301 0 false = true := by decide
theorem test_szl : group2Gives 0o7430 0 true 0 0o301 0 false = true := by decide
theorem test_skp_wraps : gives { base with pc := 0o7777 } 0o7410 (fun t => t.pc = 1) = true := by decide
theorem test_nop_group2 : group2Gives 0o7400 0o1234 true 0 0o301 0o1234 false = true := by decide
theorem test_cla_group2 : group2Gives 0o7600 0o1234 true 0 0o301 0 false = true := by decide
theorem test_osr : group2Gives 0o7404 0o0070 false 0o7007 0o301 0o7077 false = true := by decide
theorem test_hlt : group2Gives 0o7402 0o1234 true 0 0o301 0o1234 true = true := by decide
theorem test_sza_osr_tests_first : group2Gives 0o7444 0 false 1 0o302 1 false = true := by decide
theorem test_sma_cla_clears_first : group2Gives 0o7700 0o4000 false 0 0o301 0 false = true := by decide
theorem test_group3 : gives { base with ac := 0o1234 } 0o7601
    (fun t => t.run = .fault .unimplementedOperation 0o300 0o7601 && t.pc = 0o301 && t.ac = 0o1234) = true := by decide

/-! V-IOT -/

/-- The environment with one character waiting. -/
def typed : State := { base with env := { quiet with kbdQ := [0o101] } }

theorem test_ksf : gives typed 0o6031 (fun t => t.pc = 0o302 && t.env.kbdQ = [0o101]) = true := by decide
theorem test_ksf_arrival : gives { base with env := { quiet with kbdArrivals := [[0o101]] } } 0o6031
    (fun t => t.pc = 0o302 && t.env.kbdQ = [0o101]) = true := by decide
theorem test_kcc : gives { typed with ac := 0o1234 } 0o6032 (fun t => t.ac = 0 && t.env.kbdQ = [0o101]) = true := by
  decide
theorem test_krs : gives { typed with ac := 0o200 } 0o6034
    (fun t => t.ac = 0o301 && t.env.kbdQ = [] && t.tty.kbuf = 0o101) = true := by decide
theorem test_krb : gives { base with ac := 0o7777, env := { quiet with kbdQ := [0o101, 0o102] } } 0o6036
    (fun t => t.ac = 0o101 && t.env.kbdQ = [0o102]) = true := by decide
theorem test_keyboard_7 : gives { typed with ac := 0o7777 } 0o6037
    (fun t => t.pc = 0o302 && t.ac = 0o101 && t.env.kbdQ = []) = true := by decide
theorem test_keyboard_0 : gives { typed with ac := 0o1234 } 0o6030
    (fun t => t.pc = 0o301 && t.tty.sub = .kbd && t.tty.ac = 0o1234) = true := by decide
theorem test_tsf : gives { base with env := { quiet with prtReady := [true] } } 0o6041 (fun t => t.pc = 0o302) = true := by decide
theorem test_tsf_not_ready : gives { base with env := { quiet with prtReady := [false] } } 0o6041 (fun t => t.pc = 0o301) = true := by
  decide
theorem test_tcf : gives { base with ac := 0o301 } 0o6042 (fun t => t.pc = 0o301 && t.ac = 0o301) = true := by decide
theorem test_tpc : gives { base with ac := 0o301 } 0o6044 (fun t => t.env.prtLog = [0o301] && t.ac = 0o301) = true := by
  decide
theorem test_tls : gives { base with ac := 0o7501 } 0o6046 (fun t => t.env.prtLog = [0o101]) = true := by decide
theorem test_printer_7 : gives { base with ac := 0o101, env := { quiet with prtReady := [true] } } 0o6047
    (fun t => t.pc = 0o302 && t.env.prtLog = [0o101]) = true := by decide
theorem test_rsf : gives { base with tape := { rflag := true } } 0o6011 (fun t => t.pc = 0o302) = true := by decide
theorem test_rrb : gives { base with ac := 3, tape := { rbuf := 0o200, rflag := true } } 0o6012
    (fun t => t.ac = 0o203 && !t.tape.rflag) = true := by decide
theorem test_rfc : gives { base with env := { quiet with rdrTape := [0o101, 0o102] } } 0o6014
    (fun t => t.tape.rbuf = 0o101 && t.tape.rflag && t.env.rdrPos = 1) = true := by decide
theorem test_rfc_fails : gives { base with env := { quiet with rdrFails := [true] } } 0o6014
    (fun t => t.run = .fault .deviceIO 0o300 0o6014) = true := by decide
theorem test_rrb_rfc : gives { base with tape := { rbuf := 0o101 }, env := { quiet with rdrTape := [0o102] } } 0o6016
    (fun t => t.ac = 0o101 && t.tape.rbuf = 0o102 && t.tape.rflag) = true := by decide
theorem test_reader_7 :
    gives { base with tape := { rbuf := 0o101, rflag := true }, env := { quiet with rdrTape := [0o102] } } 0o6017
      (fun t => t.pc = 0o302 && t.ac = 0o101 && t.tape.rbuf = 0o102) = true := by decide
theorem test_psf : gives { base with tape := { pflag := true } } 0o6021 (fun t => t.pc = 0o302) = true := by decide
theorem test_pcf : gives { base with ac := 0o1234, tape := { pflag := true } } 0o6022
    (fun t => !t.tape.pflag && t.ac = 0o1234) = true := by decide
theorem test_ppc : gives { base with ac := 0o377 } 0o6024 (fun t => t.env.punLog = [0o377] && t.tape.pflag) = true := by
  decide
theorem test_pls : gives { base with ac := 0o1101, tape := { pflag := true } } 0o6026
    (fun t => t.env.punLog = [0o101] && t.tape.pflag) = true := by decide
theorem test_punch_7 : gives { base with ac := 0o102, tape := { pflag := true } } 0o6027
    (fun t => t.pc = 0o302 && t.env.punLog = [0o102]) = true := by decide
theorem test_unclaimed : gives { base with ac := 0o1234 } 0o6007 (fun t => t.pc = 0o301 && t.ac = 0o1234) = true := by decide
theorem test_unclaimed_77 : gives { base with ac := 0o1234 } 0o6777 (fun t => t.pc = 0o301 && t.ac = 0o1234) = true := by
  decide

/-- Device X of 43_iot R201. -/
def deviceX : TableDevice where
  selectRows := [{ sel := 0o10 }]
  getRows := [{ value := 0o17 }]
  iop1Rows := [{ answer := .signals { skip := true } }]
  iop2Rows := [{ answer := .signals { clear := true } }]
  iop4Rows := [{ answer := .signals { skip := true, orInput := true } }]

/-- The machine of 43_iot R201: device X on selector 0o10. -/
def withX : State := { base with
  ac := 0o7000
  devices := [.tty, .tape, .other 0]
  others := [.table deviceX] }

theorem test_device_x : gives withX 0o6107 (fun t => t.pc = 0o303 && t.ac = 0o17) = true := by decide

/-- R194: a stage whose pulse is clear is not called; each pulse has its own operation. -/
theorem test_device_x_iop2_alone : gives withX 0o6102 (fun t => t.pc = 0o301 && t.ac = 0) = true := by decide

/-- R191: a device may claim by the accumulator and by its own state, and may keep the copy for a later stage. This one
claims 0o10 only for a negative AC, and from then on 0o11, where IOP4 gives the copy back. -/
def withLatch : State := { base with
  ac := 0o4321
  devices := [.other 0]
  others := [.table {
    selectRows := [{ sel := 0o10, guard := { acMask := 0o4000, acBits := 0o4000 }, next := some 1 },
      { sel := 0o11, guard := { phase := some 1 } }]
    getRows := [{ echo := 0o7777 }]
    iop4Rows := [{ answer := .signals { clear := true, orInput := true } }] }] }

theorem test_latch_claims_by_ac :
    claimant 0o10 withLatch = some (.other 0) ∧ claimant 0o10 { withLatch with ac := 0o3777 } = none ∧
    gives withLatch 0o6104 (fun t => t.ac = 0o4321) = true := by decide
theorem test_latch_claims_by_state :
    claimant 0o11 withLatch = none ∧
    gives withLatch 0o6100 (fun t => claimant 0o11 t = some (.other 0)) = true := by decide

/-! V-RUN -/

/-- A NOP at PC and one key to come. -/
def keyed (k : Key) : State := { (base.writeMem 0o300 0o7000) with env := { quiet with keys := [k] } }

theorem test_continue_is_dropped : answers (step (keyed .continue)) (fun t => t.pc = 0o301 && t.env.keys = []) = true := by
  decide
theorem test_step_key_halts : answers (step (keyed .step)) (fun t => t.run = .waiting && t.sstep && t.pc = 0o300) = true := by
  decide
theorem test_exit_ends_run : answers (step { keyed .none with halt := true, exit := true }) (fun t => t.run = .off) = true := by
  decide
theorem test_wait_ignores_other :
    answers (step { keyed .other with run := .waiting, halt := true }) (fun t => t.run = .waiting && t.pc = 0o300) = true := by
  decide
theorem test_wait_continue :
    answers (step { keyed .continue with run := .waiting, halt := true, sstep := true })
      (fun t => t.run = .running && !t.halt && !t.sstep && t.pc = 0o301) = true := by decide
theorem test_switches_sampled :
    answers (step { (base.writeMem 0o300 0o7404) with env := { quiet with switches := [0o7007, 1] } })
      (fun t => t.sr = 0o7007 && t.ac = 0o7007 && t.env.switches = [1]) = true := by decide

/-! The host's word placement: the very next step runs the word. -/

theorem test_withFetchWord_runs : answers (step (State.reset.withFetchWord 12 0o7001)) (fun t => t.ac = 1 && t.pc = 1) = true := by
  decide

/-- From reset, where no draw is listed, OSR ors the switches as they stand, whatever follows. -/
theorem test_withFetchWord_osr : answers (step (State.reset.withFetchWord 12 0o7404)) (fun t => t.ac = 0 && t.pc = 1) = true := by
  decide
theorem test_withFetchWord_from_wait :
    answers (step (State.withFetchWord { keyed .step with run := .waiting, halt := true } 12 0o7001))
      (fun t => t.ac = 1 && t.pc = 0o301 && t.env.keys = [.step]) = true := by decide

/-! V-LOAD -/

/-- An image as loaded, at one address. -/
def cell (r : Except LoadError Memory) (a : Word) : Option Word :=
  match r with
  | .ok m => some (m.read a)
  | .error _ => none

theorem test_object_load :
    cell (loadObject "10200 7300 7402".toList) 0o200 = some 0o7300 ∧
    cell (loadObject "10200 7300 7402".toList) 0o201 = some 0o7402 := by decide +kernel
theorem test_object_overwrite : cell (loadObject "10200 1 10200 2".toList) 0o200 = some 2 := by decide +kernel
theorem test_object_past_end :
    cell (loadObject "17777 1234".toList) 0o7777 = some 0o1234 ∧
    loadObject "17777 1234 5670".toList = .error .pastEnd := by decide +kernel
theorem test_object_bad_token : loadObject "10200 789".toList = .error .badToken ∧ loadObject [] = .ok [] := by decide +kernel
theorem test_object_wide_token : cell (loadObject "30200 7402".toList) 0o200 = some 0o7402 := by decide +kernel
theorem test_rim_load :
    loadRim [0o200, 0o200, 0o102, 0o000, 0o073, 0o000, 0o102, 0o001, 0o074, 0o002, 0o200] =
      .ok [(0o200, 0o7300), (0o201, 0o7402)] := by decide +kernel
theorem test_rim_ends :
    loadRim [0o102, 0o000, 0o073, 0o000] = .ok [(0o200, 0o7300)] ∧ loadRim [0o200, 0o200, 0o200] = .ok [] ∧
    loadRim [0o102, 0o000, 0o073, 0o000, 0o200, 0o377, 0o377] = .ok [(0o200, 0o7300)] := by decide +kernel
theorem test_rim_errors :
    loadRim [0o200, 0o002, 0o000, 0o073, 0o000] = .error .noAddressMark ∧
    loadRim [0o102, 0o000, 0o073] = .error .shortBlock := by decide +kernel
theorem test_rim_high_bits :
    loadRim [0o300, 0o000, 0o073, 0o000, 0o200] = .ok [(0, 0o7300)] ∧
    loadRim [0o102, 0o300, 0o273, 0o100, 0o200] = .ok [(0o200, 0o7300)] := by decide +kernel

/-- R333: the extension selects the loader; R343: a file that cannot be read fails the load, and no run starts. -/
theorem test_load_selects :
    load ⟨".rim", some [0o102, 0o000, 0o073, 0o000]⟩ = .ok [(0o200, 0o7300)] ∧
    load ⟨".po", some [0o67, 0o64, 0o60, 0o62, 0o12]⟩ = .ok [(0, 0o7402)] := by decide +kernel
theorem test_load_unreadable :
    load ⟨".rim", none⟩ = .error .unreadable ∧ boot {} ⟨".po", none⟩ = .error .unreadable := by decide +kernel

/-- The image of 95_test_vectors' round trip. -/
def image : Memory := [(0o10, 0o277), (0o200, 0o7300), (0o201, 0o1410), (0o7777, 1)]

theorem test_object_tokens :
    objectTokens none image = [0o10010, 0o277, 0o10200, 0o7300, 0o1410, 0o17777, 1] := by decide

/-! ### Witnesses: for each statement with hypotheses, values that meet them, clause by clause -/

theorem witness_BootStartsLegalRun :
    ({} : Launch).env.rdrPos ≤ ({} : Launch).env.rdrTape.length ∧
    load ⟨".rim", some [0o102, 0o000, 0o073, 0o000]⟩ = .ok [(0o200, 0o7300)] ∧
    load ⟨".rim", some [0o102]⟩ = .error .shortBlock ∧
    load ⟨".po", some [0o67, 0o64, 0o60, 0o62]⟩ = .ok [(0, 0o7402)] ∧ ".po" ≠ ".rim" ∧ (⟨".po", none⟩ : ProgramFile).content = none := by
  decide +kernel

theorem witness_DecodeOfEncode :
    WellFormed (.dca ⟨true, true, 0o177⟩) = true ∧ WellFormed (.iot 0o05 {}) = true ∧ WellFormed (.iot 0o77 {}) = true ∧
    WellFormed (.opr1 { cma := true, iac := true }) = true ∧ WellFormed (.opr2 { cla := true, osr := true }) = true ∧
    WellFormed (.iotReaderOtherPulseSets {}) = true := by decide

theorem witness_EncodeOfDecode : decodeWord 0o7041 = .ok (.opr1 { cma := true, iac := true }) := by decide

/-- StepRunsDecodedInstruction. -/
theorem witness_StepRunsDecodedInstruction :
    decodeWord ((keyed .continue).readMem (keyed .continue).pc) = .ok .nop ∧ (keyed .continue).run = .running ∧
    (keyed .continue).halt = false ∧ (keyed .continue).sstep = false ∧ (keyed .continue).env.key ≠ .step := by decide

/-- An OSR at PC and two switch samples to come. -/
def switched : State := { (base.writeMem 0o300 0o7404) with env := { quiet with switches := [0o7007, 0] } }

/-- OsrUsesThisCyclesSwitches: a listed sample, and one past the list. -/
theorem witness_OsrUsesThisCyclesSwitches :
    switched.env.drawSwitches = (0o7007, { switched.env with switches := [0] }) ∧
    decodeWord (switched.readMem switched.pc) = .ok .osr ∧
    ({} : Environment).drawSwitches = (Config.panelSwitches 0, { freeDraws := 1 }) :=
  ⟨rfl, rfl, rfl⟩

/-- StoreIsSeenByNextFetch: the store of DCA; of ISZ, with and without a skip; the autoincrement. -/
theorem witness_StoreIsSeenByNextFetch :
    (formAddress ⟨false, false, 0o50⟩ { base with pc := 0o50 }).ma = ({ base with pc := 0o50 } : State).pc ∧
    ((formAddress ⟨false, false, 0o50⟩ { base with pc := 0o50 }).readMem 0o50 + 1 = 1) ∧
    ((formAddress ⟨false, false, 0o51⟩ { (base.writeMem 0o51 0o7777) with pc := 0o50 }).ma = 0o50 + 1 ∧
      (0o7777#12 + 1 = 0)) ∧
    (autoincrements ⟨true, false, 0o10⟩ { base with pc := 0o10 } = true ∧
      (formAddress ⟨true, false, 0o10⟩ { base with pc := 0o10 }).ma ≠ directAddress ⟨true, false, 0o10⟩ base ∧
      directAddress ⟨true, false, 0o10⟩ base = 0o10) := by decide

/-- RunControlTransitions: no halt, a halt with EXIT clear, a halt with EXIT set. -/
theorem witness_RunControlTransitions :
    ((keyed .continue).run = .running ∧ ((keyed .continue).halt || ((keyed .continue).sstep || false)) = false) ∧
    ((keyed .step).run = .running ∧ (keyed .step).env.key = .step ∧ (keyed .step).exit = false) ∧
    (({ keyed .none with sstep := true } : State).run = .running ∧ ({ keyed .none with sstep := true } : State).exit = false) ∧
    (({ keyed .none with halt := true, exit := true } : State).run = .running) := by decide

/-- The halt wait with a key to come. -/
def waiting (k : Key) : State := { keyed k with run := .waiting, halt := true }

/-- HaltWaitActsOnKeys, each key. -/
theorem witness_HaltWaitActsOnKeys :
    ∀ k : Key, k ∈ [Key.continue, Key.step, Key.none, Key.other] →
      (waiting k).run = .waiting ∧ (waiting k).env.key = k := by decide

/-- HaltWaitActsOnKeys, the clause on what follows a STEP key. -/
theorem witness_HaltWaitActsOnKeys_step :
    (waiting .step).run = .waiting ∧ (waiting .step).exit = false ∧ (waiting .step).env.key = .step ∧
    answers (step (waiting .step)) (fun t => t.run = .running) = true := by decide

theorem witness_HltHaltsAtNextRunControl :
    (keyed .none).run = .running ∧ (keyed .none).exit = false ∧
    ({ keyed .none with exit := true } : State).run = .running ∧
    answers (step { (base.writeMem 0o300 0) with halt := true, env := { quiet with keys := [.none, .continue] } })
      (fun t => t.env.key = .continue) = true := by decide

theorem witness_TerminalStatesHaveNoStep :
    ({ base with run := .off } : State).run = .off ∧
    ({ base with run := .fault .deviceIO 0o300 0o6014 } : State).run = .fault .deviceIO 0o300 0o6014 := by decide

/-- Inv holds in a running, a waiting, an off and both kinds of faulted states. -/
theorem witness_Inv :
    Inv (keyed .none) ∧ Inv (waiting .none) ∧ Inv { keyed .none with run := .off, halt := true, exit := true } ∧
    Inv { base with run := .fault .deviceIO 0o300 0o6014, ir := 0o6014, ma := 0o300, mb := 0o300 } ∧
    Inv { base with
      run := .fault .unimplementedOperation 0o300 0o7401, ir := 0o7401, ma := 0o300, mb := 0o300, pc := 0o301 } :=
  ⟨⟨rfl, trivial, by decide⟩, ⟨rfl, ⟨rfl, rfl⟩, by decide⟩, ⟨rfl, ⟨rfl, rfl⟩, by decide⟩,
    ⟨rfl, ⟨rfl, rfl, rfl, rfl⟩, by decide⟩, ⟨rfl, ⟨rfl, rfl, rfl, rfl, rfl⟩, by decide⟩⟩

/-- StepKeepsInvariant and StepKeepsLaunchParametersAndLogs: a legal state with a step. -/
theorem witness_StepKeepsInvariant :
    Inv (keyed .none) ∧ answers (step (keyed .none)) (fun t => t.pc = 0o301) = true :=
  ⟨witness_Inv.1, by decide⟩

theorem witness_LinkIsWrittenByTadAndGroupOneOnly :
    exec .hlt base = .next { base with halt := true } ∧ group1Of .hlt = none ∧ ∀ m, Instr.hlt ≠ .tad m :=
  ⟨rfl, rfl, fun _ h => nomatch h⟩

theorem witness_IotAndOperateTouchNoMemory :
    mriOf .ksf = none ∧ mriOf (.iot 0o77 {}) = none ∧ mriOf .iac = none ∧ mriOf (.opr3 0) = none := by decide

theorem witness_PanelStateIsNotTheProgramsToWrite : exec .hlt base = .next { base with halt := true } := rfl

/-- EffectiveAddressFormation: direct; indirect through 0o10, 0o17, and the neighbours 0o07 and 0o20. -/
theorem witness_EffectiveAddressFormation :
    (decodeWord 0o1412 = .ok (.tad ⟨true, false, 0o12⟩) ∧ mriOf (.tad ⟨true, false, 0o12⟩) = some ⟨true, false, 0o12⟩) ∧
    autoincrements ⟨false, false, 0o10⟩ base = false ∧ autoincrements ⟨true, false, 0o07⟩ base = false ∧
    autoincrements ⟨true, false, 0o10⟩ base = true ∧ autoincrements ⟨true, false, 0o17⟩ base = true ∧
    autoincrements ⟨true, false, 0o20⟩ base = false ∧
    directAddress ⟨true, true, 0o10⟩ { base with mb := 0o7777 } = 0o7610 := by decide

/-- The memory-reference results: their hypotheses only name the state after step 4 and the operand. -/
theorem witness_MemoryReferenceResults :
    (formAddress ⟨false, false, 0o50⟩ (base.writeMem 0o50 0o7777)).ma = 0o50 ∧
    (formAddress ⟨false, false, 0o50⟩ (base.writeMem 0o50 0o7777)).readMem 0o50 + 1 = 0 := by decide

/-- JumpIndirectReturnsFromSubroutine: P3's call of 0o220 and its return. -/
theorem witness_JumpIndirectReturnsFromSubroutine :
    answers (exec (.jms ⟨false, true, 0o20⟩) { base with pc := 0o203, ma := 0o202, mb := 0o202 })
      (fun t => (({ t with mb := 0o222 } : State).readMem t.ma = t.readMem t.ma : Bool) &&
        directAddress ⟨true, true, 0o20⟩ { t with mb := 0o222 } = t.ma &&
        !autoincrements ⟨true, true, 0o20⟩ { t with mb := 0o222 }) = true := by decide

/-- GroupOneIsItsSequence, ClearAndComplementWords, IacResult: the first and the last word, and an instruction. -/
theorem witness_GroupOneIsItsSequence :
    (0o7000#12 &&& 0o7400#12 = 0o7000#12) ∧ (0o7377#12 &&& 0o7400#12 = 0o7000#12) ∧ group1Of .rtl = some { ral := true, twice := true } ∧
    group1Of (.opr1 { cma := true, iac := true }) = some { cma := true, iac := true } := by decide

/-- GroupTwoSequence: the first and the last word, and both senses, with and without a condition. -/
theorem witness_GroupTwoSequence :
    (0o7400#12 &&& 0o7401#12 = 0o7400#12) ∧ (0o7776#12 &&& 0o7401#12 = 0o7400#12) ∧
    group2Of .szl = some { snl := true, sense := true } ∧
    (0 = (if ({ cla := true } : Group2).cla then 0 else base.ac)) ∧
    group2Takes { sza := true } 0 false = true ∧ group2Takes { sza := true, sense := true } 0 false = false ∧
    group2Takes { sense := true } 0 false = true ∧ group2Takes {} 0 false = false := by decide

theorem witness_GroupThreeRaisesUnimplementedOperation :
    (base.writeMem 0o300 0o7777).readMem (base.writeMem 0o300 0o7777).pc = 0o7777 ∧
    (0o7777#12 &&& 0o7401#12 = 0o7401#12) := by decide

theorem witness_UnclaimedTransferIsInert :
    busOf (.iotUnclaimedSelector {}) = some (0, {}) ∧ claimant 0 base = none ∧
    busOf (.iot 0o05 {}) = some (0o05, {}) ∧ claimant 0o05 base = none ∧ base.devices = [.tty, .tape] ∧
    4 < (0o05#6).toNat := by decide

theorem witness_FirstClaimantAnswers :
    busOf (.iot 0o10 ⟨true, true, true⟩) = some (0o10, ⟨true, true, true⟩) ∧
    withX.devices = [.tty, .tape] ++ .other 0 :: [] ∧
    (∀ e ∈ [Device.tty, .tape], e.select 0o10 withX.ac withX = none) ∧
    ((Device.other 0).select 0o10 withX.ac withX).isSome = true := by decide

/-- EveryInstructionAnswersNext: a group 3 word, and one that is not. -/
theorem witness_EveryInstructionAnswersNext :
    Instr.opr3 0o100 = .opr3 0o100 ∧ ∀ bits, Instr.rfc ≠ .opr3 bits := ⟨rfl, fun _ h => nomatch h⟩

/-- StageSignalsApplyInOrder: a stage that answers signals, and one that fails. -/
theorem witness_StageSignalsApplyInOrder :
    (Device.tty.stage .iop2 { base with tty := { sub := .kbd } }).1 = .signals { clear := true } ∧
    (Device.tape.stage .iop4 { base with tape := { sub := .rdr }, env := { quiet with rdrFails := [true] } }).1 = .ioError := by decide

theorem witness_TransferFrame :
    busOf .krb = some (0o03, { iop4 := true, iop2 := true }) ∧ busOf (.iot 0o77 {}) = some (0o77, {}) := by decide

theorem witness_DeviceXWorkedExample :
    withX.devices = [.tty, .tape, .other 0] ∧ withX.others = [.table {
      selectRows := [{ sel := 0o10 }]
      getRows := [{ value := 0o17 }]
      iop1Rows := [{ answer := .signals { skip := true } }]
      iop2Rows := [{ answer := .signals { clear := true } }]
      iop4Rows := [{ answer := .signals { skip := true, orInput := true } }] }] :=
  ⟨rfl, rfl⟩

/-- KeyboardWords and KeyboardOtherPulseSets: an empty queue and a character waiting. -/
theorem witness_KeyboardWords :
    claimant 0o03 base = some .tty ∧ base.env.arrive.kbdQ = [] ∧ base.env.arrive.arrive.kbdQ = [] ∧
    claimant 0o03 typed = some .tty ∧ typed.env.arrive.kbdQ = 0o101 :: [] ∧ typed.env.arrive.arrive.kbdQ = 0o101 :: [] := by
  decide

/-- PrinterWords: both answers. -/
theorem witness_PrinterWords :
    claimant 0o04 base = some .tty ∧
    ({ prtReady := [true] } : Environment).drawReady = (true, {}) ∧
    ({ prtReady := [false] } : Environment).drawReady = (false, {}) := by decide

/-- ReaderWords and ReaderOtherPulseSets: a byte on the tape, the end of the tape, and for the forms that read nothing a
failure to come. -/
theorem witness_ReaderWords :
    claimant 0o01 base = some .tape ∧ base.env.drawReaderFails = (false, { base.env with rdrFails := [] }) ∧
    ({ rdrTape := [0o101] } : Environment).rdrTape[0]? = some 0o101 ∧ base.env.rdrTape[base.env.rdrPos]? = none ∧
    claimant 0o01 { base with env := { quiet with rdrFails := [true] } } = some .tape := by decide

theorem witness_PunchWords :
    claimant 0o02 base = some .tape ∧ base.env.drawPunchFails = (false, { base.env with punFails := [] }) ∧
    claimant 0o02 { base with env := { quiet with punFails := [true] } } = some .tape := by decide

theorem witness_BackingStoreFailureRaisesDeviceIO :
    claimant 0o01 base = some .tape ∧ ({ rdrFails := [true] } : Environment).drawReaderFails = (true, {}) ∧
    claimant 0o02 base = some .tape ∧ ({ punFails := [true] } : Environment).drawPunchFails = (true, {}) := by decide

/-- ObjectTokensApplyInOrder: the last data token, the first address token, the last cell, a text that parses, and a bad
token. -/
theorem witness_ObjectTokensApplyInOrder :
    0o7777 < 0o10000 ∧ (0o7777 ≤ 0o7777 ∧ 4095 < 4096) ∧ (0o7777 ≤ 0o7777 ∧ 4096 ≤ 4096) ∧
    (splitTokens [] ['7', ' ', '1', '0']).map (parseDigits 0) = [7, 8].map some ∧
    (['8'] ∈ splitTokens [] ['7', ' ', '8'] ∧ parseDigits 0 ['8'] = none) := by decide +kernel

theorem witness_ObjectFileRoundTrip : image.wf = true ∧ Memory.wf [] = true := by decide

/-- RimStreamLoadsItsBlocks: a block with a trailer and more, and a stream with neither. -/
theorem witness_RimStreamLoadsItsBlocks :
    (∀ b ∈ [((0o102#8, 0o000#8, 0o073#8, 0o000#8) : Byte × Byte × Byte × Byte)], b.1.getLsbD 6 = true) ∧
    (∃ rest, [0o200#8, 0o377#8] = 0o200#8 :: rest ∧
      ([((0o102#8, 0o000#8, 0o073#8, 0o000#8) : Byte × Byte × Byte × Byte)] ≠ [] ∨ rest = [])) ∧
    (∃ rest, [0o200#8] = 0o200#8 :: rest ∧ (([] : List (Byte × Byte × Byte × Byte)) ≠ [] ∨ rest = [])) :=
  ⟨fun b hb => by rw [List.mem_singleton.mp hb]; rfl, ⟨_, rfl, .inl (List.cons_ne_nil _ _)⟩, ⟨_, rfl, .inr rfl⟩⟩

/-- RimFormatErrorsFailTheLoad: an unmarked whole block, and a marked short one. -/
theorem witness_RimFormatErrorsFailTheLoad :
    ([0o002#8, 0o000#8, 0o073#8, 0o000#8].head? = some 0o002#8 ∧ 0o002#8 ≠ 0o200#8 ∧ (0o002#8).getLsbD 6 = false) ∧
    ([0o102#8, 0o000#8, 0o073#8].head? = some 0o102#8 ∧ 0o102#8 ≠ 0o200#8 ∧ [0o102#8, 0o000#8, 0o073#8].length < 4) := by
  decide +kernel

end Sys2Proof.Tests
end

section
/-! PROOFS. State and reset (10_state): what a step can do as a whole, said once, the invariant, and the obligations of
the family. -/

namespace Sys2Proof.Machine

/-! ### Run agreement, one run state at a time -/

/-- A running engine agrees with any flags. -/
theorem runAgrees_of_running {s : State} (h : s.run = .running) : RunAgrees s := by
  simp only [RunAgrees, h]

theorem runAgrees_of_waiting {s : State} (h : s.run = .waiting) (hhalt : s.halt = true) (hexit : s.exit = false) :
    RunAgrees s := by
  simpa only [RunAgrees, h] using ⟨hhalt, hexit⟩

theorem runAgrees_of_off {s : State} (h : s.run = .off) (hhalt : s.halt = true) (hexit : s.exit = true) :
    RunAgrees s := by
  simpa only [RunAgrees, h] using ⟨hhalt, hexit⟩

/-- A group 3 fault that records the word in IR and the address in MA and MB, one before PC. -/
theorem runAgrees_of_unimplemented {s : State} (h : s.run = .fault .unimplementedOperation s.ma s.ir)
    (hword : s.ir &&& 0o7401#12 = 0o7401#12) (hmb : s.mb = s.ma) (hpc : s.pc = s.ma + 1) : RunAgrees s := by
  simpa only [RunAgrees, h, true_and] using ⟨hword, hmb, hpc⟩

/-- A DeviceIO fault that records the transfer in IR and its address in MA and MB. -/
theorem runAgrees_of_deviceIO {s : State} (h : s.run = .fault .deviceIO s.ma s.ir)
    (hword : s.ir &&& 0o7000#12 = 0o6000#12) (hmb : s.mb = s.ma) : RunAgrees s := by
  simpa only [RunAgrees, h, true_and] using ⟨hword, hmb⟩

/-! ### Run control -/

theorem arm_run (s : State) : (arm s).run = s.run := by
  unfold arm
  split <;> rfl

theorem force_run (s : State) : (force s).run = s.run := by
  unfold force
  split <;> rfl

/-- The entry to the halt wait looks at HALT and EXIT before it stores WAITING or OFF (41_cycle R145, R147). -/
theorem enterWait_agrees {s : State} (h : s.run = .running) : RunAgrees (enterWait s) := by
  unfold enterWait
  split
  case isTrue hhalt =>
    split
    case isTrue hexit => exact runAgrees_of_off rfl hhalt hexit
    case isFalse hexit => exact runAgrees_of_waiting rfl hhalt (Bool.eq_false_iff.mpr hexit)
  case isFalse => exact runAgrees_of_running h

/-- A poll drops its key and either does nothing else or ends the wait (41_cycle R146). -/
theorem poll_cases (s : State) : poll s = s.setEnv s.env.dropKey ∨ (poll s).run = .running := by
  unfold poll
  split
  · exact .inr rfl
  · exact .inr rfl
  · exact .inl rfl
  · exact .inl rfl

/-- What run control and a poll can do: a key is dropped, SSTEP, HALT and RUN move, and RUN still agrees. -/
structure ControlStep (s u : State) : Prop where
  frame : u = { s with env := s.env.dropKey, sstep := u.sstep, halt := u.halt, run := u.run }
  agrees : RunAgrees s → RunAgrees u

theorem runControl_controlStep {s : State} (h : s.run = .running) : ControlStep s (runControl s) where
  frame := runControl_frame s
  agrees _ := enterWait_agrees (by rw [force_run, arm_run, h])

theorem poll_controlStep (s : State) : ControlStep s (poll s) where
  frame := poll_frame s
  agrees hs := by
    rcases poll_cases s with hidle | hrun
    · rw [hidle]; exact hs
    · exact runAgrees_of_running hrun

/-! ### A whole step -/

/-- An instruction's answer is what `ExecStep` allows. -/
theorem execStep_of_exec {i : Instr} {s t : State} (h : exec i s = .next t) : ExecStep i s t := by
  obtain ⟨u, hu, hstep⟩ := exec_step i s
  obtain rfl : u = t := Host.Outcome.next.inj (hu.symm.trans h)
  exact hstep

theorem proceed_cases {u t : State} (h : proceed u = .next t) :
    (u.run = .running ∧ cycle u = .next t) ∨ t = u := by
  unfold proceed at h
  split at h
  case isTrue hrun => exact .inl ⟨hrun, h⟩
  case isFalse => exact .inr (Host.Outcome.next.inj h).symm

/-- What a step can do: run control or a poll, and then, if the engine runs, the instruction at PC after the switch
sample and fetch. -/
theorem step_cases {s t : State} (h : step s = .next t) :
    ∃ u, ControlStep s u ∧
      ((u.run = .running ∧ ∃ i, decodeWord (u.readMem u.pc) = .ok i ∧ ExecStep i (fetch (sampleSwitches u)) t) ∨
        t = u) := by
  obtain ⟨u, hcontrol, hproceed⟩ : ∃ u, ControlStep s u ∧ proceed u = .next t := by
    cases hrun : s.run with
    | running => exact ⟨_, runControl_controlStep hrun, (step_running hrun).symm.trans h⟩
    | waiting => exact ⟨_, poll_controlStep s, (step_waiting hrun).symm.trans h⟩
    | off => simp [step, hrun] at h
    | fault kind addr ir => simp [step, hrun] at h
  refine ⟨u, hcontrol, (proceed_cases hproceed).imp_left ?_⟩
  rintro ⟨hrun, hcycle⟩
  obtain ⟨i, v, hi, hv, hexec⟩ := cycle_step u
  obtain rfl : v = t := Host.Outcome.next.inj (hv.symm.trans hcycle)
  exact ⟨hrun, i, hi, hexec⟩

/-! ### Launch parameters and logs -/

/-- EXIT and the device list are unchanged, and the environment moved only as a device operation may move it. -/
structure KeepsLaunch (s t : State) : Prop where
  exit : t.exit = s.exit
  devices : t.devices = s.devices
  env : EnvStep s.env t.env

theorem KeepsLaunch.trans {s t u : State} (h : KeepsLaunch s t) (k : KeepsLaunch t u) : KeepsLaunch s u :=
  ⟨k.exit.trans h.exit, k.devices.trans h.devices, h.env.trans k.env⟩

theorem ControlStep.keepsLaunch {s u : State} (h : ControlStep s u) : KeepsLaunch s u := by
  rw [h.frame]
  exact ⟨rfl, rfl, s.env.dropKey_step⟩

theorem fetch_sampleSwitches_keepsLaunch (s : State) : KeepsLaunch s (fetch (sampleSwitches s)) :=
  ⟨rfl, rfl, sampleSwitches_env s⟩

theorem ExecStep.keepsLaunch {i : Instr} {s t : State} (h : ExecStep i s t) : KeepsLaunch s t where
  exit := by rw [h.frame]
  devices := by rw [h.frame]
  env := h.env

theorem step_keepsLaunch {s t : State} (h : step s = .next t) : KeepsLaunch s t := by
  obtain ⟨u, hcontrol, ⟨-, i, -, hexec⟩ | rfl⟩ := step_cases h
  · exact (hcontrol.keepsLaunch.trans (fetch_sampleSwitches_keepsLaunch u)).trans hexec.keepsLaunch
  · exact hcontrol.keepsLaunch

/-! ### The invariant -/

theorem mriOf_eq_none_of_busOf {i : Instr} {q : Selector × Pulses} (h : busOf i = some q) : mriOf i = none := by
  cases i <;> simp [busOf, mriOf] at h ⊢

/-- An instruction run from a state just fetched (its own address in MA and MB, its word in IR, PC one past it) leaves
RUN in agreement: a fault it raises records that word and that address. -/
theorem ExecStep.runAgrees {i : Instr} {s t : State} (h : ExecStep i s t) (hrun : s.run = .running)
    (hi : decodeWord s.ir = .ok i) (hmb : s.mb = s.ma) (hpc : s.pc = s.ma + 1) : RunAgrees t := by
  rcases h.run with hkept | ⟨hfault, sel, p, hbus⟩ | ⟨rfl, b, rfl⟩
  · exact runAgrees_of_running (hkept.trans hrun)
  · have hir : t.ir = s.ir := by rw [h.frame]
    obtain ⟨-, hma', hmb'⟩ := h.noMemory (mriOf_eq_none_of_busOf hbus)
    refine runAgrees_of_deviceIO (by rw [hfault, hma', hir]) ?_ (by rw [hmb', hmb, hma'])
    rw [hir]
    exact opcode_of_bus hi hbus
  · exact runAgrees_of_unimplemented rfl (word_of_opr3 hi) hmb hpc

theorem ControlStep.mem {s u : State} (h : ControlStep s u) : u.mem = s.mem := by
  rw [h.frame]

/-- The step lemma of the invariant. -/
theorem step_keeps_inv {s t : State} (hs : Inv s) (h : step s = .next t) : Inv t := by
  have htape : t.env.rdrPos ≤ t.env.rdrTape.length := (step_keepsLaunch h).env.pos hs.tape
  obtain ⟨u, hcontrol, hcases⟩ := step_cases h
  have humem : u.mem.wf = true := by rw [hcontrol.mem]; exact hs.mem
  rcases hcases with ⟨hrun, i, hi, hexec⟩ | rfl
  · exact ⟨hexec.wf humem, hexec.runAgrees hrun hi rfl rfl, htape⟩
  · exact ⟨humem, hcontrol.agrees hs.run, htape⟩

/-! ### Reset -/

/-- A memory that lists nothing reads as unlisted everywhere (10_state R38). -/
@[simp] theorem Memory.read_nil (a : Word) : Memory.read [] a = Config.unlisted := rfl

theorem reset_inv : Inv State.reset := ⟨State.reset_mem_wf, runAgrees_of_running rfl, le_refl _⟩

/-! ### The obligations -/

/-- Settles O20: run control and polls keep RUN in agreement, and an instruction's fault records what was fetched. -/
theorem stepKeepsInvariant : Obligations.StepKeepsInvariant := fun _ _ => step_keeps_inv

/-- Settles O22, from what any instruction can do (`ExecStep`). -/
theorem linkIsWrittenByTadAndGroupOneOnly : Obligations.LinkIsWrittenByTadAndGroupOneOnly :=
  fun _ _ _ h => (execStep_of_exec h).link

/-- Settles O24, from the frame of an instruction and its rule for HALT (`ExecStep`). -/
theorem panelStateIsNotTheProgramsToWrite : Obligations.PanelStateIsNotTheProgramsToWrite := by
  intro i s t h
  have hexec := execStep_of_exec h
  have hsr : t.sr = s.sr := by rw [hexec.frame]
  have hsstep : t.sstep = s.sstep := by rw [hexec.frame]
  exact ⟨hsr, hsstep, hexec.keepsLaunch.exit, hexec.keepsLaunch.devices, hexec.halt⟩

/-- Settles O25: each part of a step keeps the launch parameters and lets the environment move as `EnvStep` says. -/
theorem stepKeepsLaunchParametersAndLogs : Obligations.StepKeepsLaunchParametersAndLogs := by
  intro s t h
  obtain ⟨hexit, hdevices, henv⟩ := step_keepsLaunch h
  exact ⟨hexit, hdevices, henv.tape, henv.prtLog, henv.punLog⟩

/-- Settles O1: the launch is that record, and an empty memory lists no cell. -/
theorem launchGivesResetValues : Obligations.LaunchGivesResetValues :=
  ⟨fun _ => rfl, Memory.read_nil⟩

/-- Settles O2, the base case of O20. -/
theorem resetMeetsInvariant : Obligations.ResetMeetsInvariant := ⟨reset_inv, rfl, rfl, rfl⟩

end Sys2Proof.Machine
end

section
/-! PROOFS. Memory (20_memory R73): the only cell a memory-reference instruction stores in is its effective address, so
the next fetch sees that store and, elsewhere, what fetch step 4 left. -/

namespace Sys2Proof.Machine

theorem fetch_ir (s : State) : (fetch s).ir = s.readMem s.pc := rfl

/-- After an autoincrement the pointer cell holds the incremented word (41_cycle R158). -/
theorem formAddress_readMem_directAddress {m : Mri} {s : State} (h : autoincrements m s = true) :
    (formAddress m s).readMem (directAddress m s) = s.readMem (directAddress m s) + 1 := by
  simp [formAddress_readMem, h]

/-- A cell that a memory-reference instruction does not store in, because it is not the effective address or because
AND, TAD and JMP store nothing, keeps what fetch step 4 left there (42_memory_reference R170 to R175). -/
theorem exec_mri_readMem_other {i : Instr} {m : Mri} (hm : mriOf i = some m) (s : State) {a : Word}
    (ha : (formAddress m s).ma ≠ a ∨ i = .and m ∨ i = .tad m ∨ i = .jmp m) :
    ∃ t, exec i s = .next t ∧ t.readMem a = (formAddress m s).readMem a := by
  have hwrite (v : Word) (hne : (formAddress m s).ma ≠ a) :
      ((formAddress m s).mem.write (formAddress m s).ma v).read a = (formAddress m s).readMem a :=
    Memory.read_write_other _ _ _ _ hne.symm
  cases i <;> simp only [mriOf, reduceCtorEq, Option.some.injEq] at hm <;> subst hm
  case and => exact ⟨_, exec_and _ s, rfl⟩
  case tad => exact ⟨_, exec_tad _ s, rfl⟩
  case jmp => exact ⟨_, exec_jmp _ s, rfl⟩
  case isz => exact ⟨_, exec_isz _ s _ rfl, hwrite _ (by simpa using ha)⟩
  case dca => exact ⟨_, exec_dca _ s, hwrite _ (by simpa using ha)⟩
  case jms => exact ⟨_, exec_jms _ s, hwrite _ (by simpa using ha)⟩

/-- Settles O14: the word fetched next is the cell DCA or ISZ wrote, or a pointer cell that nothing wrote after its
increment. -/
theorem storeIsSeenByNextFetch : Obligations.StoreIsSeenByNextFetch := by
  refine ⟨fun m s hpc => ⟨_, exec_dca m s, ?_⟩, fun m s v hv hpc => ⟨_, exec_isz m s v hv, ?_⟩, ?_⟩
  · show ((formAddress m s).mem.write (formAddress m s).ma s.ac).read (formAddress m s).pc = s.ac
    rw [formAddress_pc, hpc, Memory.read_write_same]
  · show ((formAddress m s).mem.write (formAddress m s).ma v).read (if v = 0 then s.pc + 1 else s.pc) = v
    rw [hpc, Memory.read_write_same]
  · intro i m s hm hauto hcell
    obtain ⟨t, ht, hread⟩ := exec_mri_readMem_other hm s hcell
    refine ⟨t, ht, fun hpc => ?_⟩
    rw [fetch_ir, hpc, hread, formAddress_readMem_directAddress hauto]

end Sys2Proof.Machine
end

section
/-! PROOFS. Encoding (30_encoding). An instruction encodes to its class's fixed bits followed by its fields; the decoder
reads the fields back, and a well-formed instruction is what its class's decoder makes of them. -/

namespace Sys2Proof.Machine
open Laws.EncodeInRow (covers_transfer covers_group1 covers_group2 covers_group3)

/-! ### Fields read back from a word put together from them (R91, R95, R97, R98) -/

theorem mri_ofWord_append (k : BitVec 3) (m : Mri) : Mri.ofWord (k ++ m.bits) = m := by
  have hoffset : (k ++ m.bits).extractLsb' 0 7 = m.offset :=
    (BitVec.extractLsb'_append_eq_of_add_le (by decide)).trans BitVec.extractLsb'_append_eq_right
  rw [Mri.ofWord, hoffset]
  simp only [Mri.bits, BitVec.getLsbD_append]
  simp

theorem selectorOf_append (k : BitVec 3) (sel : Selector) (x : BitVec 3) : selectorOf (k ++ sel ++ x) = sel :=
  (BitVec.extractLsb'_append_eq_of_le (by decide)).trans BitVec.extractLsb'_append_eq_right

theorem pulses_ofWord_append (x : BitVec 9) (p : Pulses) : Pulses.ofWord (x ++ p.bits) = p := by
  simp only [Pulses.ofWord, Pulses.bits, BitVec.getLsbD_append]
  simp

theorem group1_ofWord_append (k : BitVec 4) (g : Group1) : Group1.ofWord (k ++ g.bits) = g := by
  simp only [Group1.ofWord, Group1.bits, BitVec.getLsbD_append]
  simp

theorem group2_ofWord_append (k : BitVec 4) (g : Group2) (b : BitVec 1) : Group2.ofWord (k ++ g.bits ++ b) = g := by
  simp only [Group2.ofWord, Group2.bits, BitVec.getLsbD_append]
  simp

/-! ### The decoder on a class's word (R92, R95, R96) -/

/-- A memory-reference instruction decodes back, whatever its operand. -/
theorem decodeWord_encode_mri {i : Instr} {m : Mri} (h : mriOf i = some m) : decodeWord (encode i) = .ok i := by
  have hop (k : BitVec 3) : (k ++ m.bits).extractLsb' 9 3 = k := BitVec.extractLsb'_append_eq_left
  cases i <;> simp only [mriOf, reduceCtorEq, Option.some.injEq] at h <;> subst h <;>
    (simp only [encode, decodeWord, hop, mri_ofWord_append]; rfl)

theorem decodeWord_transferFields (sel : Selector) (p : Pulses) :
    decodeWord (6#3 ++ sel ++ p.bits) = .ok (Decode.transfer sel p) := by
  rw [decodeWord_transfer (of_decide_eq_true (covers_transfer sel p.bits)), selectorOf_append, pulses_ofWord_append]

theorem decodeWord_group1Fields (g : Group1) : decodeWord (0b1110#4 ++ g.bits) = .ok (Decode.group1 g) := by
  rw [decodeWord_group1 (of_decide_eq_true (covers_group1 g.bits)), group1_ofWord_append]

theorem decodeWord_group2Fields (g : Group2) : decodeWord (0b1111#4 ++ g.bits ++ 0#1) = .ok (Decode.group2 g) := by
  rw [decodeWord_group2 (of_decide_eq_true (covers_group2 g.bits)), group2_ofWord_append]

/-- A group 3 word decodes to some group 3 instruction, whose bits are the word's since it encodes back to it. -/
theorem decodeWord_encode_opr3 (b : BitVec 7) : decodeWord (encode (.opr3 b)) = .ok (.opr3 b) := by
  obtain ⟨c, hc⟩ := decodeWord_opr3 (of_decide_eq_true (covers_group3 b))
  have hbits : 0b1111#4 ++ c ++ 1#1 = 0b1111#4 ++ b ++ 1#1 := (decoded hc).encode
  obtain rfl : c = b := (BitVec.append_right_inj _).mp ((BitVec.append_left_inj _).mp hbits)
  exact hc

/-! ### The encoder writes the class's word -/

theorem encode_of_busOf {i : Instr} {sel : Selector} {p : Pulses} (h : busOf i = some (sel, p)) :
    encode i = 6#3 ++ sel ++ p.bits := by
  cases i <;> simp only [busOf, reduceCtorEq, Option.some.injEq, Prod.mk.injEq] at h <;> (obtain ⟨rfl, rfl⟩ := h; rfl)

theorem encode_of_group1Of {i : Instr} {g : Group1} (h : group1Of i = some g) : encode i = 0b1110#4 ++ g.bits := by
  cases i <;> simp only [group1Of, reduceCtorEq, Option.some.injEq] at h <;> (subst h; rfl)

theorem encode_of_group2Of {i : Instr} {g : Group2} (h : group2Of i = some g) : encode i = 0b1111#4 ++ g.bits ++ 0#1 := by
  cases i <;> simp only [group2Of, reduceCtorEq, Option.some.injEq] at h <;> (subst h; rfl)

/-! ### A well-formed instruction is what its class's decoder makes of its fields (assumption 10) -/

theorem deviceWord_of_not_named {p : Pulses} (h : p.named = false) (a b c d : Instr) (others : Pulses → Instr) :
    Decode.deviceWord a b c d others p = others p := by
  simp only [Pulses.named, Bool.or_eq_false_iff, decide_eq_false_iff_not] at h
  simp [Decode.deviceWord, h]

/-- A selector past the reference devices' is free. -/
theorem transfer_of_four_lt {sel : Selector} (h : 4 < sel.toNat) (p : Pulses) : Decode.transfer sel p = .iot sel p := by
  unfold Decode.transfer
  split
  case h_6 => rfl
  all_goals omega

theorem transfer_of_busOf {i : Instr} (hwf : WellFormed i = true) {sel : Selector} {p : Pulses}
    (h : busOf i = some (sel, p)) : Decode.transfer sel p = i := by
  cases i <;> simp only [busOf, reduceCtorEq, Option.some.injEq, Prod.mk.injEq] at h <;> obtain ⟨rfl, rfl⟩ := h
  case iot => exact transfer_of_four_lt (of_decide_eq_true hwf) _
  case iotReaderOtherPulseSets | iotPunchOtherPulseSets | iotKeyboardOtherPulseSets | iotPrinterOtherPulseSets =>
    exact deviceWord_of_not_named (by simpa [WellFormed] using hwf) _ _ _ _ _
  all_goals rfl

/-- Bits with no mnemonic of their own are not in the group 1 table. -/
theorem lookup_group1Names_of_not_single {g : Group1} (h : g.single = false) : Decode.group1Names.lookup g = none := by
  simp only [Group1.single, Bool.or_eq_false_iff, decide_eq_false_iff_not] at h
  simp [Decode.group1Names, List.lookup_eq_none_iff, h]

theorem lookup_group2Names_of_not_single {g : Group2} (h : g.single = false) : Decode.group2Names.lookup g = none := by
  simp only [Group2.single, Bool.or_eq_false_iff, decide_eq_false_iff_not] at h
  simp [Decode.group2Names, List.lookup_eq_none_iff, h]

theorem group1_of_group1Of {i : Instr} (hwf : WellFormed i = true) {g : Group1} (h : group1Of i = some g) :
    Decode.group1 g = i := by
  cases i <;> simp only [group1Of, reduceCtorEq, Option.some.injEq] at h <;> subst h
  case opr1 g =>
    simp only [WellFormed, Bool.and_eq_true, Bool.not_eq_true'] at hwf
    obtain ⟨⟨hsingle, hbit1⟩, hboth⟩ := hwf
    simp [Decode.group1, lookup_group1Names_of_not_single hsingle, hbit1, hboth]
  case opr1Bit1Alone | opr1BothRotates =>
    rw [Decode.group1, lookup_group1Names_of_not_single (by simp [Group1.single, Group1Plain.withRotate])]
    rfl
  all_goals rfl

theorem group2_of_group2Of {i : Instr} (hwf : WellFormed i = true) {g : Group2} (h : group2Of i = some g) :
    Decode.group2 g = i := by
  cases i <;> simp only [group2Of, reduceCtorEq, Option.some.injEq] at h <;> subst h
  case opr2 g =>
    have hsingle : g.single = false := by simpa [WellFormed] using hwf
    simp [Decode.group2, lookup_group2Names_of_not_single hsingle]
  all_goals rfl

/-- Settles O10, class by class: the word decodes to what the class's decoder makes of the instruction's fields. -/
theorem decodeOfEncode : Obligations.DecodeOfEncode := by
  intro i hwf
  obtain ⟨m, hm⟩ | ⟨sel, p, hbus⟩ | ⟨g, hg⟩ | ⟨g, hg⟩ | ⟨b, rfl⟩ := Instr.classes i
  · exact decodeWord_encode_mri hm
  · rw [encode_of_busOf hbus, decodeWord_transferFields, transfer_of_busOf hwf hbus]
  · rw [encode_of_group1Of hg, decodeWord_group1Fields, group1_of_group1Of hwf hg]
  · rw [encode_of_group2Of hg, decodeWord_group2Fields, group2_of_group2Of hwf hg]
  · exact decodeWord_encode_opr3 b

/-- Settles O11: no bit of a word is dropped, as the check of the 4096 words shows. -/
theorem encodeOfDecode : Obligations.EncodeOfDecode := fun _ _ h => (decoded h).encode

/-! ### I/O words written as numbers (R95) -/

theorem pulses_bits_toNat (p : Pulses) : p.bits.toNat = p.iop4.toNat * 4 + p.iop2.toNat * 2 + p.iop1.toNat := by
  obtain ⟨a, b, c⟩ := p
  cases a <;> cases b <;> cases c <;> rfl

theorem transferFields_toNat (sel : Selector) (x : BitVec 3) :
    (6#3 ++ sel ++ x).toNat = 0o6000 + sel.toNat * 8 + x.toNat := by
  rw [BitVec.toNat_append, BitVec.toNat_append, ← Nat.shiftLeft_add_eq_or_of_lt x.isLt,
    ← Nat.shiftLeft_add_eq_or_of_lt sel.isLt, Nat.shiftLeft_eq, Nat.shiftLeft_eq]
  simp only [BitVec.toNat_ofNat]
  omega

theorem iotWord_eq (sel : Selector) (p : Pulses) : iotWord sel p = 6#3 ++ sel ++ p.bits := by
  have hfields : (6#3 ++ sel ++ p.bits).toNat =
      0o6000 + sel.toNat * 8 + p.iop4.toNat * 4 + p.iop2.toNat * 2 + p.iop1.toNat := by
    rw [transferFields_toNat, pulses_bits_toNat]
    omega
  rw [iotWord, ← hfields]
  exact (BitVec.ofNat_toNat 12 _).trans (BitVec.setWidth_eq _)

/-- Settles O45: the number is the transfer's word. -/
theorem transferWordsNameSelectorAndPulses : Obligations.TransferWordsNameSelectorAndPulses := fun sel p =>
  ⟨_, (congrArg decodeWord (iotWord_eq sel p)).trans (decodeWord_transferFields sel p), busOf_transfer sel p⟩

/-- Settles O8: eleven closed words, each evaluated. -/
theorem writtenWordsDecode : Obligations.WrittenWordsDecode :=
  ⟨rfl, rfl, rfl, rfl, rfl, rfl, rfl, rfl, rfl, rfl, rfl⟩

/-! ### Primary rows (R93, R100) -/

/-- The bits the primary rows look at: the opcode, and bits 8 and 0, which select the operate group. -/
theorem classBits_eq (w : Word) : w &&& 0o7401#12 =
    BitVec.ofBool (w.getLsbD 11) ++ BitVec.ofBool (w.getLsbD 10) ++ BitVec.ofBool (w.getLsbD 9) ++
      BitVec.ofBool (w.getLsbD 8) ++ 0#7 ++ BitVec.ofBool (w.getLsbD 0) := by
  apply BitVec.eq_of_getLsbD_eq
  intro i hi
  simp only [BitVec.getLsbD_and, BitVec.getLsbD_append]
  interval_cases i <;> simp

/-- No primary row's mask has a bit outside those. -/
theorem primaryRows_filter_covers (w : Word) :
    (primaryRows.filter fun r => r.covers w) = primaryRows.filter fun r => r.covers (w &&& 0o7401#12) := by
  have hmask : ∀ r ∈ primaryRows, 0o7401#12 &&& r.mask = r.mask := by decide
  refine List.filter_congr fun r hr => ?_
  rw [Row.covers, Row.covers, BitVec.and_assoc, hmask r hr]

theorem one_primaryRow_covers (w : Word) : (primaryRows.filter fun r => r.covers w).length = 1 := by
  have hall : ∀ a b c d e : Bool, (primaryRows.filter fun r => r.covers
      (BitVec.ofBool a ++ BitVec.ofBool b ++ BitVec.ofBool c ++ BitVec.ofBool d ++ 0#7 ++ BitVec.ofBool e)).length = 1 := by
    decide
  rw [primaryRows_filter_covers, classBits_eq]
  exact hall _ _ _ _ _

/-- Settles O9: the primary rows by the bits they look at, the decoding by the check of the 4096 words. -/
theorem everyWordDecodesInItsRow : Obligations.EveryWordDecodesInItsRow := by
  intro w
  obtain ⟨i, hi, hd⟩ := decoded_all w
  exact ⟨one_primaryRow_covers w, i, hi, hd.wf, decide_eq_true hd.row⟩

end Sys2Proof.Machine
end

section
/-! PROOFS. The arithmetic unit (40_alu). The carry is the library's signed overflow; link and AC are read as one ring of
thirteen bits, along which a rotate only shifts positions. -/

namespace Sys2Proof.Machine

/-! ### Addition (R120, R121) -/

/-- The library states signed overflow both by the exact sum and by the sign bits. -/
theorem Alu.add_snd_eq_saddOverflow (a b : Word) : (Alu.add a b).2 = BitVec.saddOverflow a b := by
  rw [Alu.add_snd, BitVec.saddOverflow, Bool.eq_iff_iff]
  simp only [Bool.or_eq_true, decide_eq_true_iff]
  omega

theorem Alu.add_snd_iff_signs (a b : Word) :
    (Alu.add a b).2 = true ↔
      (a.getLsbD 11 = b.getLsbD 11 ∧ (Alu.add a b).1.getLsbD 11 ≠ a.getLsbD 11) := by
  have hmsb (w : Word) : w.msb = w.getLsbD 11 := BitVec.msb_eq_getLsbD_last w
  rw [Alu.add_snd_eq_saddOverflow, BitVec.saddOverflow_eq, Alu.add_fst, hmsb, hmsb, hmsb]
  simp

theorem Alu.add_comm (a b : Word) : Alu.add a b = Alu.add b a := by
  rw [Alu.add, Int.add_comm, Alu.add]

/-- Settles O4: the sum is the library's addition, the carry its signed overflow. -/
theorem addCarryIsSignedOverflow : Obligations.AddCarryIsSignedOverflow := by
  intro a b c
  refine ⟨?modulus, ?exactSum, Alu.add_snd_iff_signs a b, Word.toInt_bounds _, Alu.add_comm a b, ?assoc⟩
  case modulus => rw [Alu.add_fst, BitVec.toNat_add]
  case exactSum => rw [Alu.add_snd, decide_eq_true_iff]
  case assoc => simp only [Alu.add_fst, BitVec.add_assoc]

/-! ### Complement (R122) -/

/-- The two's-complement reading of the complement. -/
theorem Word.toInt_not (a : Word) : (~~~a).toInt = -a.toInt - 1 := by
  have hnat : (~~~a).toNat = 4095 - a.toNat := BitVec.toNat_not
  have hlt := a.isLt
  rw [BitVec.toInt_eq_toNat_cond, BitVec.toInt_eq_toNat_cond, hnat]
  split <;> split <;> omega

/-- Settles O5: complementing is bitwise negation. -/
theorem complementIsTwosComplementReading : Obligations.ComplementIsTwosComplementReading := by
  intro a
  refine ⟨rfl, ?_⟩
  rw [Alu.complement_eq_not, Alu.complement_eq_not]
  exact ⟨BitVec.toNat_not, Word.toInt_not a, BitVec.not_not⟩

/-! ### Rotates as numbers (R123, R124) -/

/-- The link enters at bit 11, above the shifted word, so the two add. -/
theorem Alu.rotateRight_toNat (x : Word × Bool) :
    (Alu.rotateRight x).1.toNat = x.2.toNat * 2048 + x.1.toNat / 2 := by
  obtain ⟨a, l⟩ := x
  have hbit : (if l then 0o4000#12 else 0#12).toNat = 2 ^ 11 * l.toNat := by cases l <;> rfl
  have hlow : a.toNat / 2 < 2 ^ 11 := by omega
  rw [Alu.rotateRight, BitVec.toNat_or, hbit, BitVec.toNat_ushiftRight, Nat.shiftRight_eq_div_pow, pow_one,
    ← Nat.two_pow_add_eq_or_of_lt hlow, Nat.mul_comm]

/-- The link enters at bit 0, below the shifted word, so the two add. -/
theorem Alu.rotateLeft_toNat (x : Word × Bool) :
    (Alu.rotateLeft x).1.toNat = x.1.toNat * 2 % 4096 + x.2.toNat := by
  obtain ⟨a, l⟩ := x
  have hbit : (if l then 1#12 else 0#12).toNat = l.toNat := by cases l <;> rfl
  have hhigh : (a <<< 1).toNat = 2 ^ 1 * (a.toNat % 2048) := by
    rw [BitVec.toNat_shiftLeft, Nat.shiftLeft_eq]
    omega
  rw [Alu.rotateLeft, BitVec.toNat_or, hbit, hhigh, ← Nat.two_pow_add_eq_or_of_lt (Bool.toNat_lt l)]
  dsimp only
  omega

/-- Settles O6. -/
theorem rotatesMoveTheRing : Obligations.RotatesMoveTheRing := fun x =>
  ⟨Alu.rotateRight_toNat x, Alu.rotateRight_snd x, Alu.rotateLeft_toNat x, Alu.rotateLeft_snd x⟩

/-! ### The ring of link and AC (R125) -/

/-- The ring's bits: 0 to 11 are AC's, 12 is the link. -/
def Alu.ringBit (x : Word × Bool) (i : Nat) : Bool := if i = 12 then x.2 else x.1.getLsbD i

theorem Alu.eq_of_ringBit_eq {x y : Word × Bool} (h : ∀ i < 13, Alu.ringBit x i = Alu.ringBit y i) : x = y := by
  have hword : x.1 = y.1 := BitVec.eq_of_getLsbD_eq fun i hi => by
    simpa [Alu.ringBit, hi.ne] using h i (by omega)
  have hlink : x.2 = y.2 := h 12 (by decide)
  exact Prod.ext hword hlink

/-- Bit 12 takes bit 0, bit 11 takes bit 12, every other bit the one above it. -/
theorem Alu.ringBit_rotateRight (x : Word × Bool) {i : Nat} (hi : i < 13) :
    Alu.ringBit (Alu.rotateRight x) i = Alu.ringBit x ((i + 1) % 13) := by
  obtain rfl | hlt : i = 12 ∨ i < 12 := by omega
  · rfl
  · have hmod : (i + 1) % 13 = i + 1 := Nat.mod_eq_of_lt (by omega)
    simp [Alu.ringBit, hlt.ne, Alu.getLsbD_rotateRight x i hlt, hmod]

/-- Bit 0 takes bit 12, bit 12 takes bit 11, every other bit the one below it. -/
theorem Alu.ringBit_rotateLeft (x : Word × Bool) {i : Nat} (hi : i < 13) :
    Alu.ringBit (Alu.rotateLeft x) i = Alu.ringBit x ((i + 12) % 13) := by
  obtain rfl | rfl | ⟨hpos, hlt⟩ : i = 12 ∨ i = 0 ∨ 0 < i ∧ i < 12 := by omega
  · rfl
  · exact Alu.getLsbD_rotateLeft x 0 (by decide)
  · have hmod : (i + 12) % 13 = i - 1 := by omega
    have hne : i - 1 ≠ 12 := by omega
    simp [Alu.ringBit, hlt.ne, hpos.ne', hne, Alu.getLsbD_rotateLeft x i hlt, hmod]

theorem Alu.ringBit_iterate_rotateRight (n : Nat) (x : Word × Bool) {i : Nat} (hi : i < 13) :
    Alu.ringBit (Alu.rotateRight^[n] x) i = Alu.ringBit x ((i + n) % 13) := by
  induction n generalizing i with
  | zero => rw [Function.iterate_zero_apply, Nat.add_zero, Nat.mod_eq_of_lt hi]
  | succ n ih =>
    rw [Function.iterate_succ_apply', Alu.ringBit_rotateRight _ hi, ih (Nat.mod_lt _ (by decide)), Nat.mod_add_mod,
      Nat.add_right_comm, Nat.add_assoc]

theorem Alu.rotateLeft_rotateRight : Function.LeftInverse Alu.rotateLeft Alu.rotateRight := fun x =>
  Alu.eq_of_ringBit_eq fun i hi => by
    rw [Alu.ringBit_rotateLeft _ hi, Alu.ringBit_rotateRight _ (Nat.mod_lt _ (by decide)),
      show ((i + 12) % 13 + 1) % 13 = i by omega]

theorem Alu.rotateRight_rotateLeft : Function.LeftInverse Alu.rotateRight Alu.rotateLeft := fun x =>
  Alu.eq_of_ringBit_eq fun i hi => by
    rw [Alu.ringBit_rotateRight _ hi, Alu.ringBit_rotateLeft _ (Nat.mod_lt _ (by decide)),
      show ((i + 1) % 13 + 12) % 13 = i by omega]

theorem Alu.iterate_rotateRight_thirteen (x : Word × Bool) : Alu.rotateRight^[13] x = x :=
  Alu.eq_of_ringBit_eq fun i hi => by
    rw [Alu.ringBit_iterate_rotateRight 13 x hi, Nat.add_mod_right, Nat.mod_eq_of_lt hi]

/-- Thirteen left rotates undo thirteen right ones, which changed nothing. -/
theorem Alu.iterate_rotateLeft_thirteen (x : Word × Bool) : Alu.rotateLeft^[13] x = x :=
  calc Alu.rotateLeft^[13] x
      = Alu.rotateLeft^[13] (Alu.rotateRight^[13] x) := by rw [Alu.iterate_rotateRight_thirteen]
    _ = x := Alu.rotateLeft_rotateRight.iterate 13 x

/-- Settles O7: each rotate is a shift of the ring's positions modulo 13. -/
theorem rotatesAreInverse : Obligations.RotatesAreInverse := fun x =>
  ⟨Alu.rotateLeft_rotateRight x, Alu.rotateRight_rotateLeft x, Alu.iterate_rotateRight_thirteen x,
    Alu.iterate_rotateLeft_thirteen x⟩

end Sys2Proof.Machine
end

section
/-! PROOFS. The cycle (41_cycle): run control and the halt wait as equations of whole states, fetch steps 1 to 3, and
the effective address of fetch step 4. -/

namespace Sys2Proof.Machine

/-! ### Run control: arm, force, the entry to the wait (R143, R144, R145, R147) -/

theorem arm_eq (s : State) :
    arm s = { s with env := s.env.dropKey, sstep := s.sstep || decide (s.env.key = .step) } := by
  unfold arm
  by_cases h : s.env.key = .step <;> simp [h, State.setEnv, State.setSstep]

theorem force_eq (s : State) : force s = { s with halt := s.halt || s.sstep } := by
  unfold force
  by_cases h : s.sstep = true
  · simp [h, State.setHalt]
  · have hhalt : (s.halt || s.sstep) = s.halt := by simp [h]
    rw [if_neg h, hhalt]

theorem enterWait_of_not_halted {s : State} (h : s.halt = false) : enterWait s = s := by
  simp [enterWait, h]

theorem enterWait_of_halted {s : State} (h : s.halt = true) :
    enterWait s = { s with run := if s.exit then .off else .waiting } := by
  unfold enterWait
  by_cases hexit : s.exit = true <;> simp [h, hexit, State.setRun]

theorem proceed_of_running {s : State} (h : s.run = .running) : proceed s = cycle s := if_pos h

theorem proceed_of_not_running {s : State} (h : s.run ≠ .running) : proceed s = .next s := if_neg h

/-- What a step of a running engine hands to the entry of the halt wait. -/
theorem step_running_eq {s : State} (hrun : s.run = .running) :
    step s = proceed (enterWait { s with
      env := s.env.dropKey
      sstep := s.sstep || decide (s.env.key = .step)
      halt := s.halt || (s.sstep || decide (s.env.key = .step)) }) := by
  rw [step_running hrun, runControl, force_eq, arm_eq]

/-- Run control lets the cycle through when nothing asks for a halt; only the key is consumed. -/
theorem step_of_not_halted {s : State} (hrun : s.run = .running) (hhalt : s.halt = false) (hsstep : s.sstep = false)
    (hkey : s.env.key ≠ .step) : step s = cycle { s with env := s.env.dropKey } := by
  rw [step_running_eq hrun, enterWait_of_not_halted (by simp [hhalt, hsstep, hkey]), proceed_of_running]
  · simp [hhalt, hsstep, hkey]
  · exact hrun

/-- Run control ends the step when HALT is set after force. -/
theorem step_of_halted {s : State} (hrun : s.run = .running)
    (hhalt : (s.halt || (s.sstep || decide (s.env.key = .step))) = true) :
    step s = .next { s with
      env := s.env.dropKey
      sstep := s.sstep || decide (s.env.key = .step)
      halt := true
      run := if s.exit then .off else .waiting } := by
  rw [step_running_eq hrun, enterWait_of_halted hhalt, proceed_of_not_running, hhalt]
  cases s.exit <;> simp

/-- Settles O15: with no halt asked for the cycle runs, else the step ends where EXIT says. -/
theorem runControlTransitions : Obligations.RunControlTransitions := by
  intro s hrun ss hh hss hhh
  subst hss hhh
  refine ⟨fun hclear => ?_, fun hset hexit => ?_, fun hset hexit => ?_⟩
  · simp only [Bool.or_eq_false_iff, decide_eq_false_iff_not] at hclear
    obtain ⟨hhalt, hsstep, hkey⟩ := hclear
    exact step_of_not_halted hrun hhalt hsstep hkey
  · rw [step_of_halted hrun hset, hexit]; rfl
  · rw [step_of_halted hrun hset, hexit]; rfl

/-! ### The halt wait (R146) -/

theorem poll_of_continue {s : State} (h : s.env.key = .continue) :
    poll s = { s with env := s.env.dropKey, sstep := false, halt := false, run := .running } := by
  rw [poll, h]; rfl

theorem poll_of_step {s : State} (h : s.env.key = .step) :
    poll s = { s with env := s.env.dropKey, sstep := true, halt := false, run := .running } := by
  rw [poll, h]; rfl

theorem poll_of_none {s : State} (h : s.env.key = .none) : poll s = { s with env := s.env.dropKey } := by
  rw [poll, h]; rfl

theorem poll_of_other {s : State} (h : s.env.key = .other) : poll s = { s with env := s.env.dropKey } := by
  rw [poll, h]; rfl

/-- A poll that leaves the engine waiting is the whole step. -/
theorem step_of_idle_poll {s : State} (hrun : s.run = .waiting) (h : poll s = { s with env := s.env.dropKey }) :
    step s = .next { s with env := s.env.dropKey } := by
  rw [step_waiting hrun, h, proceed_of_not_running (by simp [hrun])]

/-- A poll that ends the wait is followed by the rest of the cycle. -/
theorem step_of_resuming_poll {s u : State} (hrun : s.run = .waiting) (h : poll s = u) (hu : u.run = .running) :
    step s = cycle u := by
  rw [step_waiting hrun, h, proceed_of_running hu]

/-- A cycle writes neither SSTEP nor EXIT (10_state R30). -/
theorem cycle_keeps_sstep_exit (s : State) : ∃ t, cycle s = .next t ∧ t.sstep = s.sstep ∧ t.exit = s.exit := by
  obtain ⟨i, t, -, ht, hexec⟩ := cycle_step s
  refine ⟨t, ht, ?_, hexec.keepsLaunch.exit⟩
  rw [hexec.frame]
  rfl

/-- With SSTEP set and EXIT clear a running engine halts before it fetches. -/
theorem step_of_single_step {s : State} (hrun : s.run = .running) (hsstep : s.sstep = true) (hexit : s.exit = false) :
    step s = .next { s with env := s.env.dropKey, halt := true, run := .waiting } := by
  rw [step_of_halted hrun (by simp [hsstep])]
  simp [hsstep, hexit]

/-- Settles O16: the poll of each key, and after STEP the SSTEP that the cycle leaves set. -/
theorem haltWaitActsOnKeys : Obligations.HaltWaitActsOnKeys := by
  intro s hrun
  have hstepKey (hkey : s.env.key = .step) := step_of_resuming_poll hrun (poll_of_step hkey) rfl
  refine ⟨fun hkey => step_of_resuming_poll hrun (poll_of_continue hkey) rfl, hstepKey,
    fun hkey => step_of_idle_poll hrun (poll_of_none hkey), fun hkey => step_of_idle_poll hrun (poll_of_other hkey),
    fun hkey hexit => ?_⟩
  obtain ⟨t, ht, hsstep, hexit'⟩ :=
    cycle_keeps_sstep_exit { s with env := s.env.dropKey, sstep := true, halt := false, run := .running }
  exact ⟨t, (hstepKey hkey).trans ht, fun htrun => step_of_single_step htrun hsstep (hexit'.trans hexit)⟩

/-! ### Terminal states (R147, R149) -/

/-- Settles O18: the arms of a step for the two terminal run states. -/
theorem terminalStatesHaveNoStep : Obligations.TerminalStatesHaveNoStep := by
  intro s
  refine ⟨fun hoff => ?_, fun kind addr ir hfault => ?_⟩
  · rw [step, hoff]
  · rw [step, hfault]

/-! ### Fetch and execute (R150, R152, R153, R154, R161) -/

theorem fetch_eq (s : State) :
    fetch s = { s with ma := s.pc, mb := s.pc, pc := s.pc + 1, ir := s.readMem s.pc } := rfl

theorem sampleSwitches_eq {s : State} {v : Word} {e : Environment} (h : s.env.drawSwitches = (v, e)) :
    sampleSwitches s = { s with sr := v, env := e } := by
  rw [sampleSwitches, h]; rfl

/-- Settles O12: the key that run control consumes is not seen by the fetch. -/
theorem stepRunsDecodedInstruction : Obligations.StepRunsDecodedInstruction := by
  refine ⟨fetch_eq, fun s i hi => ⟨cycle_eq hi, fun hrun hhalt hsstep hkey => ?_⟩⟩
  calc step s = cycle { s with env := s.env.dropKey } := step_of_not_halted hrun hhalt hsstep hkey
    _ = exec i (fetch (sampleSwitches { s with env := s.env.dropKey })) := cycle_eq hi

/-- OSR changes AC alone (44_operate R232). -/
theorem exec_osr (s : State) : exec .osr s = .next { s with ac := s.ac ||| s.sr } := rfl

/-- Settles O13: the sample is taken before the fetch and OSR reads it from SR. -/
theorem osrUsesThisCyclesSwitches : Obligations.OsrUsesThisCyclesSwitches := by
  intro s v e hdraw hi
  rw [cycle_eq hi, sampleSwitches_eq hdraw, fetch_eq, exec_osr]
  rfl

/-- Settles O23, from what any instruction can do (`ExecStep`). -/
theorem iotAndOperateTouchNoMemory : Obligations.IotAndOperateTouchNoMemory := by
  intro i s hi
  obtain ⟨t, ht, hexec⟩ := exec_step i s
  obtain ⟨hmem, hma, hmb⟩ := hexec.noMemory hi
  have hir : t.ir = s.ir := by rw [hexec.frame]
  exact ⟨t, ht, hmem, hma, hmb, hir⟩

/-! ### The effective address (R156, R157, R158, R159) -/

/-- A memory-reference word decodes to the fields `Mri.ofWord` reads, since the instruction encodes back to it. -/
theorem ofWord_of_mriOf {w : Word} {i : Instr} {m : Mri} (h : decodeWord w = .ok i) (hm : mriOf i = some m) :
    Mri.ofWord w = m := by
  rw [← (decoded h).encode]
  cases i <;> simp only [mriOf, reduceCtorEq, Option.some.injEq] at hm <;> subst hm <;> exact mri_ofWord_append _ _

theorem offset_ofWord (w : Word) : (Mri.ofWord w).offset.setWidth 12 = w &&& 0o0177#12 := by
  have hoffset : (Mri.ofWord w).offset.toNat = w.toNat % 2 ^ 7 := by
    rw [Mri.ofWord, BitVec.extractLsb'_toNat, Nat.shiftRight_zero]
  apply BitVec.eq_of_toNat_eq
  calc ((Mri.ofWord w).offset.setWidth 12).toNat
      = w.toNat % 2 ^ 7 := by rw [BitVec.toNat_setWidth_of_le (by decide), hoffset]
    _ = (w &&& 0o0177#12).toNat := (Nat.and_two_pow_sub_one_eq_mod w.toNat 7).symm

theorem autoincrements_eq (m : Mri) (s : State) : autoincrements m s =
    (m.indirect && decide (0o10 ≤ (directAddress m s).toNat ∧ (directAddress m s).toNat ≤ 0o17)) := by
  rw [autoincrements, isAutoincrement, Bool.decide_and]

/-- Settles O26: page, EA0 and auto are the model's `pageBase`, `directAddress` and `autoincrements`. -/
theorem effectiveAddressFormation : Obligations.EffectiveAddressFormation := by
  refine ⟨fun w i m hi hm => ?_, fun m s page ea0 auto hpage hea0 hauto => ?_⟩
  · obtain rfl := ofWord_of_mriOf hi hm
    exact ⟨rfl, rfl, offset_ofWord w⟩
  · obtain rfl : ea0 = directAddress m s := by rw [hea0, hpage]; rfl
    rw [← autoincrements_eq] at hauto
    subst hauto
    exact ⟨effectiveAddress_eq m s, formAddress_readMem m s, formAddress_eq m s⟩

end Sys2Proof.Machine
end

section
/-! PROOFS. The memory-reference instructions (42_memory_reference): their words written as numbers, and what each does
from the state after fetch step 4. -/

namespace Sys2Proof.Machine

/-! ### Words written as numbers (R91) -/

theorem mri_bits_toNat (m : Mri) :
    m.bits.toNat = m.indirect.toNat * 256 + m.page.toNat * 128 + m.offset.toNat := by
  rw [Mri.bits, BitVec.toNat_append, BitVec.toNat_append, ← Nat.shiftLeft_add_eq_or_of_lt m.offset.isLt,
    ← Nat.shiftLeft_add_eq_or_of_lt (BitVec.isLt _), Nat.shiftLeft_eq, Nat.shiftLeft_eq, BitVec.toNat_ofBool,
    BitVec.toNat_ofBool]
  omega

theorem mriWord_toNat_eq (op : BitVec 3) (m : Mri) : mriWord op.toNat m = op ++ m.bits := by
  have hfields : (op ++ m.bits).toNat =
      op.toNat * 512 + m.indirect.toNat * 256 + m.page.toNat * 128 + m.offset.toNat := by
    rw [BitVec.toNat_append, ← Nat.shiftLeft_add_eq_or_of_lt m.bits.isLt, Nat.shiftLeft_eq, mri_bits_toNat]
    omega
  rw [mriWord, ← hfields]
  exact (BitVec.ofNat_toNat 12 _).trans (BitVec.setWidth_eq _)

theorem decodeWord_mriWord {i : Instr} {m : Mri} {op : BitVec 3} (hm : mriOf i = some m)
    (hword : encode i = op ++ m.bits) : decodeWord (mriWord op.toNat m) = .ok i := by
  rw [mriWord_toNat_eq, ← hword, decodeWord_encode_mri hm]

/-! ### The six instructions (R170 to R175) -/

/-- Settles O27, by the equation of AND. -/
theorem andResult : Obligations.AndResult := by
  rintro m s t rfl
  exact ⟨decodeWord_mriWord (op := 0) rfl rfl, exec_and m s⟩

/-- Settles O28: the sum of the unit is addition modulo 4096, its carry the signed overflow. -/
theorem tadResult : Obligations.TadResult := by
  rintro m s t x rfl rfl
  refine ⟨decodeWord_mriWord (op := 1) rfl rfl, ?_⟩
  rw [exec_tad, Alu.add_fst, Alu.add_snd]

/-- Settles O29: the one cell written is EA. -/
theorem iszResult : Obligations.IszResult := by
  rintro m s t v rfl hv
  exact ⟨decodeWord_mriWord (op := 2) rfl rfl, _, exec_isz m s v hv, fun a => Memory.read_write _ _ a v, rfl⟩

/-- Settles O30: the one cell written is EA. -/
theorem dcaResult : Obligations.DcaResult := by
  rintro m s t rfl
  exact ⟨decodeWord_mriWord (op := 3) rfl rfl, _, exec_dca m s, fun a => Memory.read_write _ _ a s.ac, rfl⟩

/-- Settles O31: the one cell written is EA, and PC is already past the JMS when it is stored. -/
theorem jmsResult : Obligations.JmsResult := by
  rintro m s t rfl
  exact ⟨decodeWord_mriWord (op := 4) rfl rfl, _, exec_jms m s, fun a => Memory.read_write _ _ a s.pc, rfl⟩

/-- Settles O32, by the equation of JMP. -/
theorem jmpResult : Obligations.JmpResult := by
  rintro m s t rfl
  exact ⟨decodeWord_mriWord (op := 5) rfl rfl, exec_jmp m s⟩

/-! ### The return from a subroutine (R174, R175) -/

/-- With no autoincrement fetch step 4 writes MA alone. -/
theorem formAddress_mem_of_not_autoincrements {m : Mri} {s : State} (h : autoincrements m s = false) :
    (formAddress m s).mem = s.mem := by
  have hpointer : incrementPointer m s = s := by simp [incrementPointer, h]
  show (incrementPointer m s).mem = s.mem
  rw [hpointer]

/-- An indirect reference outside the autoincrement cells takes its address from the pointer cell as it stands. -/
theorem effectiveAddress_of_plain_indirect {m : Mri} {s : State} (hindirect : m.indirect = true)
    (h : autoincrements m s = false) : effectiveAddress m s = s.readMem (directAddress m s) := by
  simp [effectiveAddress_eq, hindirect, h]

/-- JMS leaves the return address in the entry word, where MA still points. -/
theorem exec_jms_readMem_ma {m : Mri} {s t : State} (h : exec (.jms m) s = .next t) : t.readMem t.ma = s.pc := by
  rw [exec_jms] at h
  injection h with h
  subst h
  exact Memory.read_write_same _ _ _

/-- Settles O33: the entry word JMS wrote is the address the indirect JMP goes to. -/
theorem jumpIndirectReturnsFromSubroutine : Obligations.JumpIndirectReturnsFromSubroutine := by
  intro m m' s s' t hjms hentry hdirect hindirect hauto
  refine ⟨_, exec_jmp m' s', ?_, formAddress_mem_of_not_autoincrements hauto⟩
  calc effectiveAddress m' s'
      = s'.readMem (directAddress m' s') := effectiveAddress_of_plain_indirect hindirect hauto
    _ = t.readMem t.ma := by rw [hdirect, hentry]
    _ = s.pc := exec_jms_readMem_ma hjms

end Sys2Proof.Machine
end

section
/-! PROOFS. The device bus (43_iot): who answers a transfer, what its stages do one after the other, and the spec's
worked example. -/

namespace Sys2Proof.Machine

/-! ### Arbitration (R193, R196) -/

/-- Devices that do not claim the selector are passed over. -/
theorem arbitrate_append_of_unclaimed {sel : Selector} {s : State} {before : List Device}
    (h : ∀ e ∈ before, e.select sel s.ac s = none) (rest : List Device) :
    arbitrate sel s (before ++ rest) = arbitrate sel s rest := by
  induction before with
  | nil => rfl
  | cons e before ih =>
    obtain ⟨he, hbefore⟩ := List.forall_mem_cons.mp h
    simp [arbitrate, he, ih hbefore]

theorem claimant_eq_none_of_unclaimed {sel : Selector} {s : State}
    (h : ∀ d ∈ s.devices, d.select sel s.ac s = none) : claimant sel s = none := by
  have hnone : arbitrate sel s s.devices = none := by
    simpa [arbitrate] using arbitrate_append_of_unclaimed h []
  simp [claimant, hnone]

theorem claimant_of_first {sel : Selector} {s t : State} {before after : List Device} {d : Device}
    (hdevices : s.devices = before ++ d :: after) (hbefore : ∀ e ∈ before, e.select sel s.ac s = none)
    (hd : d.select sel s.ac s = some t) : claimant sel s = some d := by
  simp [claimant, hdevices, arbitrate_append_of_unclaimed hbefore, arbitrate, hd]

/-- 30_encoding R103 (D36): the reference devices name their sub-devices by the selectors 0o01 to 0o04. -/
theorem subOf_eq_none_of_unclaimed_selector {sel : Selector} (h : sel = 0 ∨ 4 < sel.toNat) :
    Tty.subOf sel = none ∧ Tape.subOf sel = none := by
  have hne : ∀ r : Selector, 0 < r.toNat → r.toNat ≤ 4 → sel ≠ r := by
    rintro r hpos hle rfl
    rcases h with rfl | hlt
    · exact absurd hpos (by decide)
    · omega
  simp [Tty.subOf, Tape.subOf, hne 0o01#6, hne 0o02#6, hne 0o03#6, hne 0o04#6]

theorem reference_devices_unclaimed {sel : Selector} (h : sel = 0 ∨ 4 < sel.toNat) (s : State) :
    ∀ d ∈ [Device.tty, .tape], d.select sel s.ac s = none := by
  obtain ⟨htty, htape⟩ := subOf_eq_none_of_unclaimed_selector h
  simp [Device.select, Tty.select, Tape.select, htty, htape]

/-! ### One stage (R195, R198) -/

@[simp] theorem runPulses_nil (d : Device) (s : State) : runPulses d [] s = s := rfl

theorem runPulses_cons_of_signals {d : Device} {k : Pulse} {s t : State} {g : Signals}
    (h : d.stage k s = (.signals g, t)) (later : List Pulse) :
    runPulses d (k :: later) s = runPulses d later (applySignals d g t) := by
  simp [runPulses, h]

theorem runPulses_cons_of_ioError {d : Device} {k : Pulse} {s t : State} (h : d.stage k s = (.ioError, t))
    (later : List Pulse) : runPulses d (k :: later) s = t.raise .deviceIO := by
  simp [runPulses, h]

/-! ### Device X of the worked example (R201) -/

/-- What device X answers at each stage, whatever its AC copy is. -/
def deviceXSignals : Pulse → Signals
  | .iop1 => { skip := true }
  | .iop2 => { clear := true }
  | .iop4 => { skip := true, orInput := true }

/-- Device X, with its AC copy. -/
def deviceX (ac : Word) : TableDevice where
  ac := ac
  selectRows := [{ sel := 0o10 }]
  getRows := [{ value := 0o17 }]
  iop1Rows := [{ answer := .signals (deviceXSignals .iop1) }]
  iop2Rows := [{ answer := .signals (deviceXSignals .iop2) }]
  iop4Rows := [{ answer := .signals (deviceXSignals .iop4) }]

/-- The default guard always holds; its fields are written as `simp` writes word literals. -/
@[simp] theorem DeviceGuard.holds_default (phase : Nat) (ac : Word) :
    DeviceGuard.holds { acMask := 0#12, acBits := 0#12 } phase ac = true := by
  simp [DeviceGuard.holds]

@[simp] theorem deviceX_select (old ac : Word) : (deviceX old).select 0o10#6 ac = some (deviceX ac) := by
  simp [TableDevice.select, deviceX]

@[simp] theorem deviceX_get (ac : Word) : (deviceX ac).get = 0o17 := by
  simp [TableDevice.get, deviceX]

@[simp] theorem deviceX_stage (k : Pulse) (ac : Word) :
    (deviceX ac).stage k = (.signals (deviceXSignals k), deviceX ac) := by
  cases k <;> simp [TableDevice.stage, TableDevice.stageRows, deviceX]

theorem select_other_deviceX {s : State} {old : Word} (h : s.others = [.table (deviceX old)]) :
    (Device.other 0).select 0o10 s.ac s = some { s with others := [.table (deviceX s.ac)] } := by
  simp [Device.select, OtherDevice.select, State.setOthers, h]

theorem stage_other_deviceX {s : State} {ac : Word} (h : s.others = [.table (deviceX ac)]) (k : Pulse) :
    (Device.other 0).stage k s = (.signals (deviceXSignals k), s) := by
  have hsame : s.setOthers [.table (deviceX ac)] = s := by rw [← h]; rfl
  simp [Device.stage, OtherDevice.stage, h, hsame]

/-- A stage of device X applies its signals and leaves the device as it is. -/
theorem runPulses_cons_deviceX {s : State} {ac : Word} (h : s.others = [.table (deviceX ac)]) (k : Pulse)
    (later : List Pulse) :
    runPulses (.other 0) (k :: later) s = runPulses (.other 0) later { s with
      pc := if (deviceXSignals k).skip then s.pc + 1 else s.pc,
      ac := (if (deviceXSignals k).clear then 0 else s.ac) ||| (if (deviceXSignals k).orInput then 0o17 else 0) } := by
  have hget : (Device.other 0).get s = 0o17 := by simp [Device.get, OtherDevice.get, h]
  rw [runPulses_cons_of_signals (stage_other_deviceX h k), applySignals_eq, hget]

/-- The three stages of device X: the first skip, the clear, and the second skip with the or-input. -/
theorem runPulses_deviceX {s : State} {ac : Word} (h : s.others = [.table (deviceX ac)]) :
    runPulses (.other 0) [.iop1, .iop2, .iop4] s = { s with pc := s.pc + 2, ac := 0o17 } := by
  simp [runPulses_cons_deviceX (ac := ac), h, deviceXSignals, BitVec.add_assoc]

/-! ### The obligations -/

/-- Settles O44: with no claimant the bus does nothing, and the reference devices claim 0o01 to 0o04 only. -/
theorem unclaimedTransferIsInert : Obligations.UnclaimedTransferIsInert := by
  constructor
  · intro i sel p s hbus hclaim
    rw [exec_bus hbus, busTransfer_of_claimant_none p hclaim]
  · intro sel s hdevices hsel
    exact claimant_eq_none_of_unclaimed (hdevices ▸ reference_devices_unclaimed hsel s)

/-- Settles O46: arbitration passes over the devices before the claimant and asks none after it. -/
theorem firstClaimantAnswers : Obligations.FirstClaimantAnswers := by
  intro i sel p s t before after d hbus hdevices hbefore hd
  have hclaim : claimant sel s = some d := claimant_of_first hdevices hbefore hd
  refine ⟨hclaim, ?_⟩
  rw [exec_bus hbus, busTransfer_of_claimant p hclaim hd, assertedPulses]

/-- Settles O47, by the equation of each answer a stage can give. -/
theorem stageSignalsApplyInOrder : Obligations.StageSignalsApplyInOrder := by
  intro d k later s t
  refine ⟨runPulses_nil d s, fun g hstage => ?_, fun hstage => ?_⟩
  · rw [runPulses_cons_of_signals hstage, applySignals_eq]
  · rw [runPulses_cons_of_ioError hstage, State.raise, State.setRun]

/-- Settles O48, from what a transfer can do (`BusStep`). -/
theorem transferFrame : Obligations.TransferFrame := by
  intro i sel p s hbus
  obtain ⟨hframe, -, hrun, hpc⟩ := busTransfer_step sel p s
  exact ⟨_, exec_bus hbus s, hframe, hrun, hpc⟩

/-- Settles O49: the reference devices do not claim 0o10, so X is addressed (O46) and its three stages run. -/
theorem deviceXWorkedExample : Obligations.DeviceXWorkedExample := by
  rintro s _ rfl hdevices hothers
  have hX : s.others = [.table (deviceX 0)] := hothers
  have hbefore := reference_devices_unclaimed (sel := 0o10) (.inr (by decide)) s
  obtain ⟨-, hexec⟩ := firstClaimantAnswers (.iot 0o10 ⟨true, true, true⟩) 0o10 ⟨true, true, true⟩ s _ [.tty, .tape] []
    (.other 0) rfl hdevices hbefore (select_other_deviceX hX)
  exact hexec.trans (congrArg Host.Outcome.next (runPulses_deviceX rfl))

end Sys2Proof.Machine
end

section
/-! PROOFS. The operate instructions (44_operate): group 1 as a function of AC and L that its micro-operations make up
one after the other, group 2 by the condition it tests, group 3 and HLT by the cycle they end in. -/

namespace Sys2Proof.Machine

/-! ### The arithmetic unit as group 1 uses it (R123, R124, R216) -/

/-- Only 0o3777 has no signed successor. -/
theorem Alu.add_one_snd (a : Word) : (Alu.add a 1).2 = decide (a = 0o3777#12) := by
  have hbounds := Word.toInt_bounds a
  have hmax : a = 0o3777#12 ↔ a.toInt = 2047 := BitVec.toInt_inj.symm
  have hone : (1 : Word).toInt = 1 := rfl
  rw [Alu.add_snd, hone, decide_eq_decide, hmax]
  omega

theorem Alu.rotateRight_eq_append (x : Word × Bool) :
    Alu.rotateRight x = (BitVec.ofBool x.2 ++ x.1.extractLsb' 1 11, x.1.getLsbD 0) := by
  refine Prod.ext (BitVec.eq_of_getLsbD_eq fun i hi => ?_) rfl
  rw [Alu.getLsbD_rotateRight x i hi, BitVec.getLsbD_append]
  interval_cases i <;> simp

theorem Alu.rotateLeft_eq_append (x : Word × Bool) :
    Alu.rotateLeft x = (x.1.extractLsb' 0 11 ++ BitVec.ofBool x.2, x.1.getLsbD 11) := by
  refine Prod.ext (BitVec.eq_of_getLsbD_eq fun i hi => ?_) rfl
  rw [Alu.getLsbD_rotateLeft x i hi, BitVec.getLsbD_append]
  interval_cases i <;> simp

theorem Alu.rotateRight_twice_eq_append (x : Word × Bool) : Alu.rotateRight (Alu.rotateRight x) =
    (BitVec.ofBool (x.1.getLsbD 0) ++ BitVec.ofBool x.2 ++ x.1.extractLsb' 2 10, x.1.getLsbD 1) := by
  refine Prod.ext (BitVec.eq_of_getLsbD_eq fun i hi => ?_) (Alu.getLsbD_rotateRight x 0 (by decide))
  rw [Alu.getLsbD_rotateRight _ i hi, Alu.rotateRight_eq_append x]
  simp only [BitVec.getLsbD_append]
  interval_cases i <;> simp

theorem Alu.rotateLeft_twice_eq_append (x : Word × Bool) : Alu.rotateLeft (Alu.rotateLeft x) =
    (x.1.extractLsb' 0 10 ++ BitVec.ofBool x.2 ++ BitVec.ofBool (x.1.getLsbD 11), x.1.getLsbD 10) := by
  refine Prod.ext (BitVec.eq_of_getLsbD_eq fun i hi => ?_) (Alu.getLsbD_rotateLeft x 11 (by decide))
  rw [Alu.getLsbD_rotateLeft _ i hi, Alu.rotateLeft_eq_append x]
  simp only [BitVec.getLsbD_append]
  interval_cases i <;> simp

/-- Rotating right and then left, both once or both twice, moves nothing. -/
theorem Alu.times_rotateLeft_times_rotateRight (twice : Bool) (x : Word × Bool) :
    Alu.times twice Alu.rotateLeft (Alu.times twice Alu.rotateRight x) = x := by
  cases twice
  case false => exact Alu.rotateLeft_rotateRight x
  case true => exact Alu.rotateLeft_rotateRight.iterate 2 x

/-! ### Group 1 as a function of AC and L (R211) -/

/-- A group 1 instruction changes AC and L to what its sequence makes of them. -/
theorem exec_group1_eq {i : Instr} {g : Group1} (h : group1Of i = some g) {s : State} {ac : Word} {link : Bool}
    (happly : group1Apply g (s.ac, s.link) = (ac, link)) : exec i s = .next { s with ac := ac, link := link } := by
  rw [exec_group1 h, runGroup1_eq, happly]

/-- Clears come before complements, AC and L each on its own: a choice between pairs is a pair of choices. -/
theorem group1Apply_clearComplement (cla cll cma cml : Bool) (x : Word × Bool) :
    group1Apply { cla := cla, cll := cll, cma := cma, cml := cml } x =
      (if cma then (if cla then 0 else x.1) ^^^ 0o7777#12 else (if cla then 0 else x.1),
        if cml then !(if cll then false else x.2) else (if cll then false else x.2)) := by
  simp only [group1Apply, Bool.false_eq_true, if_false, Alu.complement]
  ext1 <;> simp only [apply_ite Prod.fst, apply_ite Prod.snd, ite_self]

/-- IAC comes after the clears and complements and assigns L, so that only what they leave in AC matters. -/
theorem group1Apply_iac (cla cll cma cml : Bool) (x : Word × Bool) {ac : Word}
    (hac : (group1Apply { cla := cla, cll := cll, cma := cma, cml := cml } x).1 = ac) :
    group1Apply { cla := cla, cll := cll, cma := cma, cml := cml, iac := true } x =
      (ac + 1, decide (ac = 0o3777#12)) := by
  subst hac
  exact Prod.ext (Alu.add_fst _ 1) (Alu.add_one_snd _)

/-- With both rotates selected the left one undoes the right one. -/
theorem group1Apply_bothRotates (q : Group1Plain) (twice : Bool) (x : Word × Bool) :
    group1Apply (q.withRotate true true twice) x = group1Apply (q.withRotate false false false) x :=
  Alu.times_rotateLeft_times_rotateRight twice _

theorem execAll_group1Sequence (g : Group1) (s : State) : execAll (group1Sequence g) s = .next (runGroup1 g s) :=
  calc execAll (group1Sequence g) s
      = execAll (group1Sequence g ++ []) (s.withPair (s.ac, s.link)) := by rw [List.append_nil]; rfl
    _ = .next (runGroup1 g s) := by
      rw [group1Sequence, List.append_assoc, List.append_assoc, execAll_plainSequence,
        execAll_rotates (f := Alu.rotateRight) (fun _ _ => rfl), execAll_rotates (f := Alu.rotateLeft) (fun _ _ => rfl)]
      rfl

/-! ### The obligations of group 1 -/

/-- Settles O34: what the four bits make of AC and L, in hardware order. -/
theorem clearAndComplementWords : Obligations.ClearAndComplementWords := by
  refine ⟨⟨rfl, rfl, rfl, rfl⟩, fun s => ⟨exec_group1_eq rfl rfl, exec_group1_eq rfl rfl, exec_group1_eq rfl rfl,
    exec_group1_eq rfl rfl, ?_⟩⟩
  rintro cla cll cma cml ac link rfl rfl
  exact exec_group1_eq rfl (group1Apply_clearComplement cla cll cma cml (s.ac, s.link))

/-- Settles O35: adding 1 overflows at 0o3777 alone. -/
theorem iacResult : Obligations.IacResult := by
  refine ⟨rfl, fun s => ⟨exec_group1_eq rfl (group1Apply_iac false false false false (s.ac, s.link) rfl), ?_⟩⟩
  rintro cla cll cma cml ac ac' rfl rfl
  have hac := congrArg Prod.fst (group1Apply_clearComplement cla cll cma cml (s.ac, s.link))
  exact exec_group1_eq rfl (group1Apply_iac cla cll cma cml (s.ac, s.link) hac)

/-- Settles O37: each rotate as a concatenation of AC's and L's bits. -/
theorem rotateWords : Obligations.RotateWords :=
  ⟨⟨rfl, rfl, rfl, rfl⟩, fun s =>
    ⟨exec_group1_eq (g := { rar := true }) rfl (Alu.rotateRight_eq_append (s.ac, s.link)),
      exec_group1_eq (g := { ral := true }) rfl (Alu.rotateLeft_eq_append (s.ac, s.link)),
      exec_group1_eq (g := { rar := true, twice := true }) rfl (Alu.rotateRight_twice_eq_append (s.ac, s.link)),
      exec_group1_eq (g := { ral := true, twice := true }) rfl (Alu.rotateLeft_twice_eq_append (s.ac, s.link))⟩⟩

/-- Settles O38: the sequence of single instructions does what the one instruction does. -/
theorem groupOneIsItsSequence : Obligations.GroupOneIsItsSequence := by
  refine ⟨fun w hw => ⟨_, decodeWord_group1 hw, group1Of_group1 _⟩, fun i g s hg => ⟨?_, _, _, exec_group1_eq hg rfl⟩⟩
  rw [exec_group1 hg, execAll_group1Sequence]

/-- Settles O39: bit 1 alone selects no rotate, and two opposite rotates cancel. -/
theorem oddRotateSelectionsRotateNothing : Obligations.OddRotateSelectionsRotateNothing := by
  intro q s
  refine ⟨_, _, ?plain, exec_group1_eq rfl rfl, fun twice => exec_group1_eq rfl (group1Apply_bothRotates q twice _)⟩
  case plain =>
    rw [← List.append_nil (plainSequence q)]
    exact execAll_plainSequence q [] s (s.ac, s.link)

/-! ### Group 2 by the condition it tests (R225, R230) -/

theorem group2AnyHolds_iff (g : Group2) (ac : Word) (link : Bool) : group2AnyHolds g ac link = true ↔
    (g.sma = true ∧ ac.toInt < 0) ∨ (g.sza = true ∧ ac = 0) ∨ (g.snl = true ∧ link = true) := by
  simp [group2AnyHolds, Alu.minus_eq, Alu.zero, or_assoc]

/-- The sense bit reverses the test. -/
theorem group2Takes_iff (g : Group2) (ac : Word) (link : Bool) : group2Takes g ac link = true ↔
    (if g.sense then ¬group2AnyHolds g ac link = true else group2AnyHolds g ac link = true) := by
  cases h : g.sense <;> simp [group2Takes, h]

/-- A group 2 instruction that only tests moves PC one further when its condition holds, and does nothing else. -/
theorem exec_group2_test {i : Instr} {sma sza snl sense : Bool}
    (h : group2Of i = some { sma := sma, sza := sza, snl := snl, sense := sense }) {s : State} {p : Prop} [Decidable p]
    (hp : group2Takes { sma := sma, sza := sza, snl := snl, sense := sense } s.ac s.link = true ↔ p) :
    exec i s = .next (if p then { s with pc := s.pc + 1 } else s) := by
  rw [exec_group2 h]
  exact congrArg _ (if_congr hp rfl rfl)

/-! ### The obligations of group 2 -/

/-- Settles O40: one selected condition, as it is or reversed. -/
theorem conditionSkipWords : Obligations.ConditionSkipWords := by
  refine ⟨⟨rfl, rfl, rfl, rfl, rfl, rfl⟩, fun s => ⟨?sma, ?sza, ?snl, ?spa, ?sna, ?szl⟩⟩
  all_goals exact exec_group2_test rfl (by simp [group2Takes_iff, group2AnyHolds_iff])

/-- Settles O42: the named condition is the model's test of the AC that CLA leaves. -/
theorem groupTwoSequence : Obligations.GroupTwoSequence := by
  refine ⟨fun w hw => ⟨_, decodeWord_group2 hw, group2Of_group2 _⟩, ?_⟩
  rintro i g s ac c take _ hg rfl hc htake
  have hany : c = (group2AnyHolds g (if g.cla then 0 else s.ac) s.link = true) :=
    propext (hc.trans (group2AnyHolds_iff g _ s.link).symm)
  have htakes : group2Takes g (if g.cla then 0 else s.ac) s.link = true ↔ take := by
    rw [group2Takes_iff, htake, hany]
  rw [exec_group2 hg, runGroup2_eq, if_congr htakes rfl rfl]

/-- Settles O36: every bit that selects something is clear, and no condition with the sense bit set always skips. -/
theorem noOperationAndSkipWords : Obligations.NoOperationAndSkipWords :=
  ⟨⟨rfl, rfl, rfl⟩, fun s => ⟨rfl,
    exec_group2_test (p := False) rfl (by simp [group2Takes_iff, group2AnyHolds_iff]),
    exec_group2_test (p := True) rfl (by simp [group2Takes_iff, group2AnyHolds_iff])⟩⟩

/-- Settles O41: with no condition selected PC stays, and OSR ors into the AC that CLA leaves. -/
theorem groupTwoWordsWithoutTest : Obligations.GroupTwoWordsWithoutTest := by
  refine ⟨⟨rfl, rfl, rfl⟩, fun s => ⟨rfl, exec_osr s, ?_⟩⟩
  calc exec (.opr2 { cla := true, osr := true }) s
      = .next { s with ac := 0#12 ||| s.sr } := rfl
    _ = .next { s with ac := s.sr } := by rw [BitVec.zero_or]

/-! ### Group 3 (R236) -/

/-- Settles O43: MA and IR, which the fault records, are the fetch's. -/
theorem groupThreeRaisesUnimplementedOperation : Obligations.GroupThreeRaisesUnimplementedOperation := by
  refine ⟨fun w hw => decodeWord_opr3 hw, fun bits s => exec_opr3 bits s, ?_⟩
  rintro s w rfl hw
  obtain ⟨bits, hi⟩ := decodeWord_opr3 hw
  rw [cycle_eq hi, exec_opr3, fetch_eq]
  rfl

/-! ### HLT (R233) -/

theorem exec_hlt (s : State) : exec .hlt s = .next { s with halt := true } := rfl

/-- Settles O17: HALT is looked at by the next run control, before it fetches. -/
theorem hltHaltsAtNextRunControl : Obligations.HltHaltsAtNextRunControl := by
  intro s
  have hnext (hrun : s.run = .running) := step_of_halted (s := { s with halt := true }) hrun (Bool.true_or _)
  refine ⟨rfl, exec_hlt s, fun hrun hexit => ?wait, fun hrun hexit => ?off⟩
  case wait =>
    refine ⟨_, hnext hrun, if_neg (by simp [hexit]), rfl, fun hkey => ?_⟩
    exact step_of_resuming_poll (if_neg (by simp [hexit])) (poll_of_continue hkey) rfl
  case off => exact ⟨_, hnext hrun, if_pos hexit, rfl⟩

end Sys2Proof.Machine
end

section
/-! PROOFS. The reference devices (45_devices): one rule for each stage of each sub-device, and the words of its
selector as those stages one after the other. -/

namespace Sys2Proof.Machine

/-! ### A transfer to its claimant (43_iot R193, R194) -/

/-- A transfer is its claimant's selection and then the stages of its pulses. -/
theorem exec_of_claimant {i : Instr} {sel : Selector} {p : Pulses} {d : Device} {s t u : State}
    (hbus : busOf i = some (sel, p)) (hclaim : claimant sel s = some d) (hselect : d.select sel s.ac s = some t)
    (hstages : runPulses d (assertedPulses p) t = u) : exec i s = .next u := by
  rw [exec_bus hbus, busTransfer_of_claimant p hclaim hselect, hstages]

/-- A stage of the teletype that answers signals: its effects, then its signals in their order (43_iot R195). -/
theorem runPulses_tty_cons {s : State} {k : Pulse} {g : Signals} {r : Tty × Environment}
    (h : s.tty.stage k s.env = (.signals g, r)) (later : List Pulse) :
    runPulses .tty (k :: later) s = runPulses .tty later { s with
      tty := r.1, env := r.2, pc := if g.skip then s.pc + 1 else s.pc,
      ac := (if g.clear then 0 else s.ac) ||| (if g.orInput then r.1.get else 0) } := by
  have hstage : Device.tty.stage k s = (.signals g, (s.setTty r.1).setEnv r.2) := by simp [Device.stage, h]
  rw [runPulses_cons_of_signals hstage, applySignals_eq]
  rfl

/-- A stage of the tape unit that answers signals, likewise. -/
theorem runPulses_tape_cons {s : State} {k : Pulse} {g : Signals} {r : Tape × Environment}
    (h : s.tape.stage k s.env = (.signals g, r)) (later : List Pulse) :
    runPulses .tape (k :: later) s = runPulses .tape later { s with
      tape := r.1, env := r.2, pc := if g.skip then s.pc + 1 else s.pc,
      ac := (if g.clear then 0 else s.ac) ||| (if g.orInput then r.1.get else 0) } := by
  have hstage : Device.tape.stage k s = (.signals g, (s.setTape r.1).setEnv r.2) := by simp [Device.stage, h]
  rw [runPulses_cons_of_signals hstage, applySignals_eq]
  rfl

/-! ### The keyboard (R256 to R260; D14) -/

/-- A transfer on 0o03 that the teletype answers selects the keyboard (R252, R254) and runs its stages. -/
theorem exec_keyboard {i : Instr} {p : Pulses} {s u : State} (hclaim : claimant 0o03 s = some .tty)
    (hbus : busOf i = some (0o03, p))
    (hstages : runPulses .tty (assertedPulses p) { s with tty := { s.tty with sub := .kbd, ac := s.ac } } = u) :
    exec i s = .next u :=
  exec_of_claimant hbus hclaim rfl hstages

theorem Tty.stage_keyboard {t : Tty} (h : t.sub = .kbd) (k : Pulse) (e : Environment) :
    t.stage k e = t.keyboardStage k e := by
  simp [Tty.stage, h]

theorem Tty.get_keyboard {t : Tty} (h : t.sub = .kbd) : t.get = t.kbuf.setWidth 12 := by
  simp [Tty.get, h]

theorem Tty.takeCharacter_of_empty {e : Environment} (h : e.kbdQ = []) (t : Tty) : t.takeCharacter e = (t, e) := by
  simp [Tty.takeCharacter, h]

theorem Tty.takeCharacter_of_waiting {e : Environment} {b : Byte} {rest : List Byte} (h : e.kbdQ = b :: rest)
    (t : Tty) : t.takeCharacter e = ({ t with kbuf := b }, { e with kbdQ := rest }) := by
  simp [Tty.takeCharacter, h]

theorem Tty.takeCharacter_sub (t : Tty) (e : Environment) : (t.takeCharacter e).1.sub = t.sub := by
  unfold Tty.takeCharacter
  split <;> rfl

/-- KSF's stage (R256). -/
theorem runPulses_keyboard_iop1 {s : State} (h : s.tty.sub = .kbd) (later : List Pulse) :
    runPulses .tty (.iop1 :: later) s = runPulses .tty later { s with
      env := s.env.arrive, pc := if s.env.arrive.kbdQ = [] then s.pc else s.pc + 1 } := by
  rw [runPulses_tty_cons (Tty.stage_keyboard h .iop1 s.env)]
  simp

/-- KCC's stage (R257). -/
theorem runPulses_keyboard_iop2 {s : State} (h : s.tty.sub = .kbd) (later : List Pulse) :
    runPulses .tty (.iop2 :: later) s = runPulses .tty later { s with ac := 0 } := by
  rw [runPulses_tty_cons (Tty.stage_keyboard h .iop2 s.env)]
  simp

/-- KRS's stage (R258): the character is taken before it is read. -/
theorem runPulses_keyboard_iop4 {s : State} (h : s.tty.sub = .kbd) (later : List Pulse) :
    runPulses .tty (.iop4 :: later) s = runPulses .tty later { s with
      tty := (s.tty.takeCharacter s.env.arrive).1, env := (s.tty.takeCharacter s.env.arrive).2,
      ac := s.ac ||| (s.tty.takeCharacter s.env.arrive).1.kbuf.setWidth 12 } := by
  have hsub := (s.tty.takeCharacter_sub s.env.arrive).trans h
  rw [runPulses_tty_cons (Tty.stage_keyboard h .iop4 s.env)]
  simp [Tty.get_keyboard hsub]

/-! ### The printer (R261 to R265; D15) -/

/-- A transfer on 0o04 that the teletype answers selects the printer (R252, R254) and runs its stages. -/
theorem exec_printer {i : Instr} {p : Pulses} {s u : State} (hclaim : claimant 0o04 s = some .tty)
    (hbus : busOf i = some (0o04, p))
    (hstages : runPulses .tty (assertedPulses p) { s with tty := { s.tty with sub := .prt, ac := s.ac } } = u) :
    exec i s = .next u :=
  exec_of_claimant hbus hclaim rfl hstages

theorem Tty.stage_printer {t : Tty} (h : t.sub = .prt) (k : Pulse) (e : Environment) :
    t.stage k e = t.printerStage k e := by
  simp [Tty.stage, h]

/-- The character of an output device is AC narrowed (R253). -/
theorem lowByte_eq_setWidth (ac : Word) : lowByte ac = ac.setWidth 8 :=
  (BitVec.setWidth_eq_extractLsb' (by decide)).symm

/-- TSF's stage (R261). -/
theorem runPulses_printer_iop1 {s : State} (h : s.tty.sub = .prt) (later : List Pulse) :
    runPulses .tty (.iop1 :: later) s = runPulses .tty later { s with
      env := s.env.drawReady.2, pc := if s.env.drawReady.1 then s.pc + 1 else s.pc } := by
  rw [runPulses_tty_cons (Tty.stage_printer h .iop1 s.env)]
  simp

/-- TCF's stage (R262). -/
theorem runPulses_printer_iop2 {s : State} (h : s.tty.sub = .prt) (later : List Pulse) :
    runPulses .tty (.iop2 :: later) s = runPulses .tty later s := by
  rw [runPulses_tty_cons (Tty.stage_printer h .iop2 s.env)]
  simp

/-- TPC's stage (R263): the character is the AC copy's. -/
theorem runPulses_printer_iop4 {s : State} (h : s.tty.sub = .prt) (later : List Pulse) :
    runPulses .tty (.iop4 :: later) s = runPulses .tty later { s with
      env := { s.env with prtLog := s.env.prtLog ++ [s.tty.ac.setWidth 8] } } := by
  rw [runPulses_tty_cons (Tty.stage_printer h .iop4 s.env)]
  simp [Environment.print, lowByte_eq_setWidth]

/-! ### The reader (R273 to R276, R281; D16) -/

/-- A transfer on 0o01 that the tape unit answers selects the reader (R270, R271) and runs its stages. -/
theorem exec_reader {i : Instr} {p : Pulses} {s u : State} (hclaim : claimant 0o01 s = some .tape)
    (hbus : busOf i = some (0o01, p))
    (hstages : runPulses .tape (assertedPulses p) { s with tape := { s.tape with sub := .rdr, ac := s.ac } } = u) :
    exec i s = .next u :=
  exec_of_claimant hbus hclaim rfl hstages

theorem Tape.stage_reader {t : Tape} (h : t.sub = .rdr) (k : Pulse) (e : Environment) :
    t.stage k e = t.readerStage k e := by
  simp [Tape.stage, h]

theorem Tape.get_reader {t : Tape} (h : t.sub = .rdr) : t.get = t.rbuf.setWidth 12 := by
  simp [Tape.get, h]

/-- The byte a read finds at the position, and the position after it: at the end a zero byte and no move (R275). -/
def Environment.readNext (e : Environment) : Byte × Nat :=
  match e.rdrTape[e.rdrPos]? with
  | some c => (c, e.rdrPos + 1)
  | none => (0, e.rdrPos)

theorem Tape.readCharacter_eq (t : Tape) (e : Environment) : t.readCharacter e =
    ({ t with rbuf := e.readNext.1, rflag := true }, { e with rdrPos := e.readNext.2 }) := by
  cases h : e.rdrTape[e.rdrPos]? <;> simp [Tape.readCharacter, Environment.readNext, h]

theorem Environment.drawReaderFails_readNext {e f : Environment} {b : Bool} (h : e.drawReaderFails = (b, f)) :
    f.readNext = e.readNext := by
  obtain ⟨htape, hpos⟩ := Environment.drawReaderFails_tape h
  rw [Environment.readNext, Environment.readNext, htape, hpos]

theorem Tape.fetchCharacter_of_drawn {e f : Environment} (hdraw : e.drawReaderFails = (false, f)) (t : Tape) :
    t.fetchCharacter e = (.signals {}, t.readCharacter f) := by
  simp [Tape.fetchCharacter, hdraw]

/-- RSF's stage (R273). -/
theorem runPulses_reader_iop1 {s : State} (h : s.tape.sub = .rdr) (later : List Pulse) :
    runPulses .tape (.iop1 :: later) s = runPulses .tape later { s with
      pc := if s.tape.rflag then s.pc + 1 else s.pc } := by
  rw [runPulses_tape_cons (Tape.stage_reader h .iop1 s.env)]
  simp

/-- RRB's stage (R274). -/
theorem runPulses_reader_iop2 {s : State} (h : s.tape.sub = .rdr) (later : List Pulse) :
    runPulses .tape (.iop2 :: later) s = runPulses .tape later { s with
      tape := { s.tape with rflag := false }, ac := s.ac ||| s.tape.rbuf.setWidth 12 } := by
  rw [runPulses_tape_cons (Tape.stage_reader h .iop2 s.env)]
  simp [Tape.get_reader, h]

/-- RFC's stage when the read does not fail (R275). -/
theorem runPulses_reader_iop4 {e f : Environment} {b : Byte} {pos : Nat} (hdraw : e.drawReaderFails = (false, f))
    (hread : (b, pos) = e.readNext) {s : State} (h : s.tape.sub = .rdr) (henv : s.env = e) (later : List Pulse) :
    runPulses .tape (.iop4 :: later) s = runPulses .tape later { s with
      tape := { s.tape with rbuf := b, rflag := true }, env := { f with rdrPos := pos } } := by
  subst henv
  have hstage : s.tape.stage .iop4 s.env =
      (.signals {}, { s.tape with rbuf := b, rflag := true }, { f with rdrPos := pos }) :=
    calc s.tape.stage .iop4 s.env
        = s.tape.fetchCharacter s.env := Tape.stage_reader h .iop4 s.env
      _ = (.signals {}, s.tape.readCharacter f) := Tape.fetchCharacter_of_drawn hdraw s.tape
      _ = _ := by rw [Tape.readCharacter_eq, Environment.drawReaderFails_readNext hdraw, ← hread]
  rw [runPulses_tape_cons hstage]
  simp

/-! ### The punch (R277 to R281; D17) -/

/-- A transfer on 0o02 that the tape unit answers selects the punch (R270, R271) and runs its stages. -/
theorem exec_punch {i : Instr} {p : Pulses} {s u : State} (hclaim : claimant 0o02 s = some .tape)
    (hbus : busOf i = some (0o02, p))
    (hstages : runPulses .tape (assertedPulses p) { s with tape := { s.tape with sub := .pun, ac := s.ac } } = u) :
    exec i s = .next u :=
  exec_of_claimant hbus hclaim rfl hstages

theorem Tape.stage_punch {t : Tape} (h : t.sub = .pun) (k : Pulse) (e : Environment) :
    t.stage k e = t.punchStage k e := by
  simp [Tape.stage, h]

theorem Tape.punchCharacter_of_drawn {e f : Environment} (hdraw : e.drawPunchFails = (false, f)) (t : Tape) :
    t.punchCharacter e =
      (.signals {}, { t with pflag := true }, { f with punLog := e.punLog ++ [t.ac.setWidth 8] }) := by
  simp [Tape.punchCharacter, Environment.punch, hdraw, Environment.drawPunchFails_log hdraw, lowByte_eq_setWidth]

/-- PSF's stage (R277). -/
theorem runPulses_punch_iop1 {s : State} (h : s.tape.sub = .pun) (later : List Pulse) :
    runPulses .tape (.iop1 :: later) s = runPulses .tape later { s with
      pc := if s.tape.pflag then s.pc + 1 else s.pc } := by
  rw [runPulses_tape_cons (Tape.stage_punch h .iop1 s.env)]
  simp

/-- PCF's stage (R278). -/
theorem runPulses_punch_iop2 {s : State} (h : s.tape.sub = .pun) (later : List Pulse) :
    runPulses .tape (.iop2 :: later) s = runPulses .tape later { s with tape := { s.tape with pflag := false } } := by
  rw [runPulses_tape_cons (Tape.stage_punch h .iop2 s.env)]
  simp

/-- PPC's stage when the write does not fail (R279). -/
theorem runPulses_punch_iop4 {e f : Environment} (hdraw : e.drawPunchFails = (false, f)) {s : State}
    (h : s.tape.sub = .pun) (henv : s.env = e) (later : List Pulse) :
    runPulses .tape (.iop4 :: later) s = runPulses .tape later { s with
      tape := { s.tape with pflag := true }, env := { f with punLog := e.punLog ++ [s.tape.ac.setWidth 8] } } := by
  subst henv
  have hstage := (Tape.stage_punch h .iop4 s.env).trans (Tape.punchCharacter_of_drawn hdraw s.tape)
  rw [runPulses_tape_cons hstage]
  simp

/-! ### The obligations -/

/-- Settles O50: KRB clears AC before the stage that takes the character. -/
theorem keyboardWords : Obligations.KeyboardWords := by
  rintro s _ _ hclaim rfl rfl
  refine ⟨exec_keyboard hclaim rfl ?ksf, exec_keyboard hclaim rfl ?kcc, fun hempty => ?empty,
    fun b rest hwaiting => ?waiting⟩
  case ksf => exact runPulses_keyboard_iop1 rfl []
  case kcc => exact runPulses_keyboard_iop2 rfl []
  case empty =>
    refine ⟨exec_keyboard hclaim rfl ?_, exec_keyboard hclaim rfl ?_⟩ <;>
      simp [assertedPulses, runPulses_keyboard_iop2, runPulses_keyboard_iop4, Tty.takeCharacter_of_empty hempty]
  case waiting =>
    refine ⟨exec_keyboard hclaim rfl ?_, exec_keyboard hclaim rfl ?_⟩ <;>
      simp [assertedPulses, runPulses_keyboard_iop2, runPulses_keyboard_iop4, Tty.takeCharacter_of_waiting hwaiting]

/-- Settles O51: the first stage asks for the queue and decides the skip before the last one asks again and reads. -/
theorem keyboardOtherPulseSets : Obligations.KeyboardOtherPulseSets := by
  rintro s _ _ _ _ hclaim rfl rfl rfl rfl
  refine ⟨exec_keyboard hclaim rfl rfl, exec_keyboard hclaim rfl ?skipClear, fun hempty => ?empty,
    fun b rest hwaiting => ?waiting⟩
  case skipClear => simp [assertedPulses, runPulses_keyboard_iop1, runPulses_keyboard_iop2]
  case empty =>
    refine ⟨exec_keyboard hclaim rfl ?_, exec_keyboard hclaim rfl ?_⟩ <;>
      simp [assertedPulses, runPulses_keyboard_iop1, runPulses_keyboard_iop2, runPulses_keyboard_iop4,
        Tty.takeCharacter_of_empty hempty]
  case waiting =>
    refine ⟨exec_keyboard hclaim rfl ?_, exec_keyboard hclaim rfl ?_⟩ <;>
      simp [assertedPulses, runPulses_keyboard_iop1, runPulses_keyboard_iop2, runPulses_keyboard_iop4,
        Tty.takeCharacter_of_waiting hwaiting]

/-- Settles O52: IOP2 does nothing here, and the draw of IOP1 leaves the log that IOP4 appends to. -/
theorem printerWords : Obligations.PrinterWords := by
  rintro s r e _ hclaim hready rfl
  have hlog := Environment.drawReady_log hready
  refine ⟨exec_printer hclaim rfl ?tsf, exec_printer hclaim rfl ?tcf, exec_printer hclaim rfl ?tpc,
    exec_printer hclaim rfl ?tls, exec_printer hclaim rfl rfl, exec_printer hclaim rfl ?skipClear,
    fun iop2 => exec_printer hclaim rfl ?skipPrint⟩
  case tsf => simp [assertedPulses, runPulses_printer_iop1, hready]
  case tcf => exact runPulses_printer_iop2 rfl []
  case tpc => exact runPulses_printer_iop4 rfl []
  case tls => simp [assertedPulses, runPulses_printer_iop2, runPulses_printer_iop4]
  case skipClear => simp [assertedPulses, runPulses_printer_iop1, runPulses_printer_iop2, hready]
  case skipPrint =>
    cases iop2 <;>
      simp [assertedPulses, runPulses_printer_iop1, runPulses_printer_iop2, runPulses_printer_iop4, hready, hlog]

/-- Settles O53: RRB's stage reads the old buffer before RFC's fetches the next byte. -/
theorem readerWords : Obligations.ReaderWords := by
  rintro s _ hclaim rfl
  refine ⟨exec_reader hclaim rfl ?rsf, exec_reader hclaim rfl ?rrb, ?fetching⟩
  case rsf => exact runPulses_reader_iop1 rfl []
  case rrb => exact runPulses_reader_iop2 rfl []
  case fetching =>
    rintro e _ b pos hdraw hread rfl
    refine ⟨exec_reader hclaim rfl ?_, exec_reader hclaim rfl ?_⟩ <;>
      simp [assertedPulses, runPulses_reader_iop2, runPulses_reader_iop4 hdraw hread]

/-- Settles O54: the skip is decided by the first stage, on the flag that the later ones change. -/
theorem readerOtherPulseSets : Obligations.ReaderOtherPulseSets := by
  rintro s _ _ hclaim rfl rfl
  refine ⟨exec_reader hclaim rfl rfl, exec_reader hclaim rfl ?skipRead, ?fetching⟩
  case skipRead => simp [assertedPulses, runPulses_reader_iop1, runPulses_reader_iop2]
  case fetching =>
    rintro e _ b pos hdraw hread rfl
    refine ⟨exec_reader hclaim rfl ?_, exec_reader hclaim rfl ?_⟩ <;>
      simp [assertedPulses, runPulses_reader_iop1, runPulses_reader_iop2, runPulses_reader_iop4 hdraw hread]

/-- Settles O55: the skip is decided by the first stage, PCF's clears the flag, and PPC's sets it after the write. -/
theorem punchWords : Obligations.PunchWords := by
  rintro s _ _ hclaim rfl rfl
  refine ⟨exec_punch hclaim rfl ?psf, exec_punch hclaim rfl ?pcf, exec_punch hclaim rfl rfl,
    exec_punch hclaim rfl ?skipClear, fun e hdraw => ?punching⟩
  case psf => exact runPulses_punch_iop1 rfl []
  case pcf => exact runPulses_punch_iop2 rfl []
  case skipClear => simp [assertedPulses, runPulses_punch_iop1, runPulses_punch_iop2]
  case punching =>
    refine ⟨exec_punch hclaim rfl ?ppc, exec_punch hclaim rfl ?pls, fun iop2 => exec_punch hclaim rfl ?skipPunch⟩
    case ppc => simp [assertedPulses, runPulses_punch_iop4 hdraw]
    case pls => simp [assertedPulses, runPulses_punch_iop2, runPulses_punch_iop4 hdraw]
    case skipPunch =>
      cases iop2 <;>
        simp [assertedPulses, runPulses_punch_iop1, runPulses_punch_iop2, runPulses_punch_iop4 hdraw]

end Sys2Proof.Machine
end

section
/-! PROOFS. Exceptions (60_exceptions): every instruction answers a next state, a failing backing store raises DeviceIO,
and single-step mode is transparent: each part of a cycle commutes with setting SSTEP. -/

namespace Sys2Proof.Machine

/-! ### Completion (R306, R313) -/

/-- Settles O21, from what any instruction can do (`ExecStep`). -/
theorem everyInstructionAnswersNext : Obligations.EveryInstructionAnswersNext := by
  intro i s
  obtain ⟨t, ht, hexec⟩ := exec_step i s
  refine ⟨t, ht, ?group3, fun hother => ?others⟩
  case group3 =>
    rintro bits rfl
    obtain rfl : s.raise .unimplementedOperation = t := Host.Outcome.next.inj ht
    rfl
  case others =>
    rcases hexec.run with hkept | ⟨hfault, sel, p, hbus⟩ | ⟨-, bits, hgroup3⟩
    · exact .inl hkept
    · exact .inr ⟨by simp [hbus], hfault⟩
    · exact absurd hgroup3 (hother bits)

/-! ### A failing backing store (R302; D13, assumption 12) -/

/-- A stage of the tape unit that fails: its effects, then the fault, and no later stage (43_iot R198). -/
theorem runPulses_tape_cons_of_ioError {s : State} {k : Pulse} {r : Tape × Environment}
    (h : s.tape.stage k s.env = (.ioError, r)) (later : List Pulse) :
    runPulses .tape (k :: later) s = { s with tape := r.1, env := r.2, run := .fault .deviceIO s.ma s.ir } := by
  have hstage : Device.tape.stage k s = (.ioError, (s.setTape r.1).setEnv r.2) := by simp [Device.stage, h]
  rw [runPulses_cons_of_ioError hstage]
  rfl

theorem Tape.fetchCharacter_of_failure {e f : Environment} (hdraw : e.drawReaderFails = (true, f)) (t : Tape) :
    t.fetchCharacter e = (.ioError, { t with rflag := false }, f) := by
  simp [Tape.fetchCharacter, hdraw]

theorem Tape.punchCharacter_of_failure {e f : Environment} (hdraw : e.drawPunchFails = (true, f)) (t : Tape) :
    t.punchCharacter e = (.ioError, t, f) := by
  simp [Tape.punchCharacter, hdraw]

/-- RFC's stage when the read fails (45_devices R275): the flag is already cleared. -/
theorem runPulses_reader_iop4_of_failure {e f : Environment} (hdraw : e.drawReaderFails = (true, f)) {s : State}
    (h : s.tape.sub = .rdr) (henv : s.env = e) (later : List Pulse) :
    runPulses .tape (.iop4 :: later) s = { s with
      tape := { s.tape with rflag := false }, env := f, run := .fault .deviceIO s.ma s.ir } := by
  subst henv
  exact runPulses_tape_cons_of_ioError
    ((Tape.stage_reader h .iop4 s.env).trans (Tape.fetchCharacter_of_failure hdraw s.tape)) later

/-- PPC's stage when the write fails (45_devices R279): the unit keeps its flag. -/
theorem runPulses_punch_iop4_of_failure {e f : Environment} (hdraw : e.drawPunchFails = (true, f)) {s : State}
    (h : s.tape.sub = .pun) (henv : s.env = e) (later : List Pulse) :
    runPulses .tape (.iop4 :: later) s = { s with env := f, run := .fault .deviceIO s.ma s.ir } := by
  subst henv
  exact runPulses_tape_cons_of_ioError
    ((Tape.stage_punch h .iop4 s.env).trans (Tape.punchCharacter_of_failure hdraw s.tape)) later

/-- Settles O56: the stages before the failing one run as in a transfer that does not fail, and IOP4 is the last. -/
theorem backingStoreFailureRaisesDeviceIO : Obligations.BackingStoreFailureRaisesDeviceIO := by
  rintro s e tape pc _ rfl
  constructor
  case left =>
    rintro hclaim hdraw rfl rfl
    refine ⟨exec_reader hclaim rfl ?rfc, exec_reader hclaim rfl ?rrbRfc, exec_reader hclaim rfl ?skipFetch,
      exec_reader hclaim rfl ?skipReadFetch⟩
    case rfc => simp [assertedPulses, runPulses_reader_iop4_of_failure hdraw]
    case rrbRfc => simp [assertedPulses, runPulses_reader_iop2, runPulses_reader_iop4_of_failure hdraw]
    case skipFetch => simp [assertedPulses, runPulses_reader_iop1, runPulses_reader_iop4_of_failure hdraw]
    case skipReadFetch =>
      simp [assertedPulses, runPulses_reader_iop1, runPulses_reader_iop2, runPulses_reader_iop4_of_failure hdraw]
  case right =>
    rintro hclaim hdraw rfl rfl
    refine ⟨exec_punch hclaim rfl ?ppc, exec_punch hclaim rfl ?pls, exec_punch hclaim rfl ?skipPunch,
      exec_punch hclaim rfl ?skipClearPunch⟩
    case ppc => simp [assertedPulses, runPulses_punch_iop4_of_failure hdraw]
    case pls => simp [assertedPulses, runPulses_punch_iop2, runPulses_punch_iop4_of_failure hdraw]
    case skipPunch => simp [assertedPulses, runPulses_punch_iop1, runPulses_punch_iop4_of_failure hdraw]
    case skipClearPunch =>
      simp [assertedPulses, runPulses_punch_iop1, runPulses_punch_iop2, runPulses_punch_iop4_of_failure hdraw]

/-! ### SSTEP and the memory-reference instructions (R317) -/

theorem incrementPointer_setSstep (m : Mri) (s : State) (b : Bool) :
    incrementPointer m (s.setSstep b) = (incrementPointer m s).setSstep b := by
  have hauto : autoincrements m (s.setSstep b) = autoincrements m s := rfl
  simp only [incrementPointer, hauto]
  split <;> rfl

theorem formAddress_setSstep (m : Mri) (s : State) (b : Bool) :
    formAddress m (s.setSstep b) = (formAddress m s).setSstep b := by
  simp only [formAddress, effectiveAddress, incrementPointer_setSstep]
  rfl

theorem exec_mri_setSstep {i : Instr} {m : Mri} (hm : mriOf i = some m) (s : State) (b : Bool) :
    exec i (s.setSstep b) = mapNext (State.setSstep · b) (exec i s) := by
  have hform := formAddress_setSstep m s b
  cases i <;> simp only [mriOf, reduceCtorEq, Option.some.injEq] at hm <;> subst hm
  case and => rw [exec_and, exec_and, hform]; rfl
  case tad => rw [exec_tad, exec_tad, hform]; rfl
  case isz => rw [exec_isz _ _ _ rfl, exec_isz _ _ _ rfl, hform]; rfl
  case dca => rw [exec_dca, exec_dca, hform]; rfl
  case jms => rw [exec_jms, exec_jms, hform]; rfl
  case jmp => rw [exec_jmp, exec_jmp, hform]; rfl

/-! ### SSTEP and the device bus -/

theorem Device.select_setSstep (sel : Selector) (ac : Word) (s : State) (b : Bool) (d : Device) :
    d.select sel ac (s.setSstep b) = (d.select sel ac s).map (State.setSstep · b) := by
  cases d <;> (simp only [Device.select, Option.map_map]; rfl)

theorem Device.stage_setSstep (k : Pulse) (s : State) (b : Bool) (d : Device) :
    d.stage k (s.setSstep b) = ((d.stage k s).1, (d.stage k s).2.setSstep b) := by
  cases d with
  | tty => rfl
  | tape => rfl
  | other n =>
    simp only [Device.stage, State.setSstep_others]
    split <;> rfl

theorem applySignals_setSstep (d : Device) (g : Signals) (s : State) (b : Bool) :
    applySignals d g (s.setSstep b) = (applySignals d g s).setSstep b := by
  have hget : d.get (s.setSstep b) = d.get s := by cases d <;> rfl
  rw [applySignals_eq, applySignals_eq, hget]
  rfl

theorem runPulses_setSstep (d : Device) (ks : List Pulse) (s : State) (b : Bool) :
    runPulses d ks (s.setSstep b) = (runPulses d ks s).setSstep b := by
  induction ks generalizing s with
  | nil => rfl
  | cons k later ih =>
    have hstage := d.stage_setSstep k s b
    rcases h : d.stage k s with ⟨g | _, t⟩ <;> rw [h] at hstage
    · rw [runPulses_cons_of_signals hstage, runPulses_cons_of_signals h, applySignals_setSstep, ih]
    · rw [runPulses_cons_of_ioError hstage, runPulses_cons_of_ioError h]
      rfl

theorem arbitrate_setSstep (sel : Selector) (s : State) (b : Bool) (ds : List Device) :
    arbitrate sel (s.setSstep b) ds = (arbitrate sel s ds).map fun r => (r.1, r.2.setSstep b) := by
  induction ds with
  | nil => rfl
  | cons d rest ih =>
    have hselect := d.select_setSstep sel s.ac s b
    cases h : d.select sel s.ac s <;> simp [arbitrate, hselect, h, ih]

theorem busTransfer_setSstep (sel : Selector) (p : Pulses) (s : State) (b : Bool) :
    busTransfer sel p (s.setSstep b) = (busTransfer sel p s).setSstep b := by
  have harbitrate := arbitrate_setSstep sel s b s.devices
  cases h : arbitrate sel s s.devices <;> simp [busTransfer, harbitrate, h, runPulses_setSstep]

/-! ### SSTEP and every instruction -/

/-- No instruction reads or writes SSTEP (10_state R30). -/
theorem exec_setSstep (i : Instr) (s : State) (b : Bool) :
    exec i (s.setSstep b) = mapNext (State.setSstep · b) (exec i s) := by
  obtain ⟨m, hm⟩ | ⟨sel, p, hbus⟩ | ⟨g, hg⟩ | ⟨g, hg⟩ | ⟨bits, rfl⟩ := Instr.classes i
  · exact exec_mri_setSstep hm s b
  · rw [exec_bus hbus, exec_bus hbus, busTransfer_setSstep]
    rfl
  · rw [exec_group1 hg, exec_group1 hg]
    rfl
  · rw [exec_group2 hg, exec_group2 hg, runGroup2_eq, runGroup2_eq]
    rfl
  · rfl

/-- Settles O19: the switch sample and the fetch carry SSTEP along, and so does the instruction fetched. -/
theorem singleStepModeIsTransparent : Obligations.SingleStepModeIsTransparent := by
  intro s b
  obtain ⟨i, hi⟩ := decodeWord_ok (s.readMem s.pc)
  calc cycle (s.setSstep b)
      = exec i ((fetch (sampleSwitches s)).setSstep b) := cycle_eq hi
    _ = mapNext (State.setSstep · b) (exec i (fetch (sampleSwitches s))) := exec_setSstep i _ b
    _ = mapNext (State.setSstep · b) (cycle s) := by rw [cycle_eq hi]

end Sys2Proof.Machine
end

section
/-! PROOFS. The loaders (70_reset): a load gives a canonical image or starts no run, the object loader applies a file's
tokens in order and reads back what the encoder writes, and the RIM loader writes the words of the marked blocks after
the leader, then does what the bytes after those blocks ask. -/

namespace Sys2Proof.Machine

/-! ### The encoder and the object loader (R334, R335, R338; D24, assumption 15) -/

theorem applyTokens_address {t : Nat} (h : 0o7777 < t) (wa : Nat) (m : Memory) (later : List Nat) :
    applyTokens wa m (t :: later) = applyTokens (t % 4096) m later := if_pos h

theorem applyTokens_data {t wa : Nat} (ht : t ≤ 0o7777) (hwa : wa < 4096) (m : Memory) (later : List Nat) :
    applyTokens wa m (t :: later) =
      applyTokens (wa + 1) (m.write (BitVec.ofNat 12 wa) (BitVec.ofNat 12 t)) later :=
  (if_neg (Nat.not_lt.mpr ht)).trans (if_pos hwa)

theorem applyTokens_pastEnd {t wa : Nat} (ht : t ≤ 0o7777) (hwa : 4096 ≤ wa) (m : Memory) (later : List Nat) :
    applyTokens wa m (t :: later) = .error .pastEnd :=
  (if_neg (Nat.not_lt.mpr ht)).trans (if_neg (Nat.not_lt.mpr hwa))

theorem Memory.wfFrom_cons {lo a : Nat} {v : Word} {m : Memory} :
    Memory.wfFrom lo ((a, v) :: m) = true ↔
      lo ≤ a ∧ a < Config.memoryWords ∧ v ≠ Config.unlisted ∧ Memory.wfFrom (a + 1) m = true := by
  simp only [Memory.wfFrom, Bool.and_eq_true, decide_eq_true_eq, and_assoc]

/-- The tokens of an entry write it, whether or not an address token comes first. -/
theorem applyTokens_objectTokens_cons {a wa : Nat} {next : Option Nat} (ha : a < 4096)
    (hnext : next = some a → wa = a) (v : Word) (image later : Memory) :
    applyTokens wa image (objectTokens next ((a, v) :: later)) =
      applyTokens (a + 1) (image.write (BitVec.ofNat 12 a) v) (objectTokens (some (a + 1)) later) := by
  have hdata := applyTokens_data (Nat.le_of_lt_succ v.isLt) ha image (objectTokens (some (a + 1)) later)
  rw [BitVec.ofNat_toNat, BitVec.setWidth_eq] at hdata
  rw [objectTokens]
  split
  case isTrue h => rw [hnext h, hdata]
  case isFalse =>
    have hlow : (0o10000 + a) % 4096 = a := by omega
    rw [applyTokens_address (by omega), hlow, hdata]

/-- The invariant of the round trip: the entries before `lo` are loaded, and `m` holds those from `lo` on. -/
theorem applyTokens_objectTokens {m loaded : Memory} {lo wa : Nat} {next : Option Nat}
    (hm : Memory.wfFrom lo m = true) (hloaded : ∀ e ∈ loaded, e.1 < lo) (hnext : ∀ a, next = some a → wa = a) :
    applyTokens wa loaded (objectTokens next m) = .ok (loaded ++ m) := by
  induction m generalizing loaded lo wa next with
  | nil => rw [List.append_nil]; rfl
  | cons e later ih =>
    obtain ⟨a, v⟩ := e
    obtain ⟨hlo, ha, hv, hlater⟩ := Memory.wfFrom_cons.mp hm
    have hbelow : ∀ e ∈ loaded, e.1 < a := fun e he => (hloaded e he).trans_le hlo
    have hbelow' : ∀ e ∈ loaded ++ [(a, v)], e.1 < a + 1 :=
      List.forall_mem_append.mpr ⟨fun e he => (hbelow e he).trans a.lt_succ_self, by simp⟩
    rw [applyTokens_objectTokens_cons ha (hnext a), Memory.write_append ha hv hbelow,
      ih hlater hbelow' (by simp), List.append_assoc, List.singleton_append]

/-- The encoder's tokens have at most five octal digits. -/
theorem objectTokens_lt {m : Memory} {lo : Nat} (hm : Memory.wfFrom lo m = true) (next : Option Nat) :
    ∀ t ∈ objectTokens next m, t < 32768 := by
  induction m generalizing lo next with
  | nil => simp [objectTokens]
  | cons e later ih =>
    obtain ⟨a, v⟩ := e
    obtain ⟨-, ha, -, hlater⟩ := Memory.wfFrom_cons.mp hm
    have ha : a < 4096 := ha
    have hdata : ∀ t ∈ v.toNat :: objectTokens (some (a + 1)) later, t < 32768 :=
      List.forall_mem_cons.mpr ⟨v.isLt.trans_le (by decide), ih hlater _⟩
    rw [objectTokens]
    split
    · exact hdata
    · exact List.forall_mem_cons.mpr ⟨by omega, hdata⟩

/-- Settles O58: the text reads back as its tokens, and these load the image entry by entry. -/
theorem objectFileRoundTrip : Obligations.ObjectFileRoundTrip := by
  intro m hm
  have hparse : parseTokens (splitTokens [] (objectText m)) = some (objectTokens none m) :=
    parseTokens_renderTokens (objectTokens_lt hm none)
  have happly : applyTokens 0 [] (objectTokens none m) = .ok m :=
    applyTokens_objectTokens (loaded := []) hm (by simp) (by simp)
  simp only [loadObject, hparse, happly]

/-! ### The tokens of any text (R336, R337; D25) -/

theorem parseTokens_eq_some {ts : List (List Char)} {ns : List Nat} (h : ts.map (parseDigits 0) = ns.map some) :
    parseTokens ts = some ns := by
  induction ts generalizing ns with
  | nil =>
    obtain rfl : ns = [] := by simpa using h.symm
    rfl
  | cons t later ih =>
    cases ns with
    | nil => cases h
    | cons n ns =>
      obtain ⟨ht, hlater⟩ := List.cons.inj h
      simp only [parseTokens, ht, ih hlater]

theorem parseTokens_eq_none {ts : List (List Char)} (h : ∃ t ∈ ts, parseDigits 0 t = none) :
    parseTokens ts = none := by
  induction ts with
  | nil => simp at h
  | cons t later ih =>
    rw [List.exists_mem_cons_iff] at h
    rcases h with ht | hlater
    · simp only [parseTokens, ht]
    · rw [parseTokens, ih hlater]
      cases parseDigits 0 t <;> rfl

/-- Settles O57, from the equations of one token and of the reading of all of them. -/
theorem objectTokensApplyInOrder : Obligations.ObjectTokensApplyInOrder := by
  refine ⟨fun _ _ => rfl, fun wa image t later => ⟨?address, ?data, ?pastEnd⟩, ?text, ?badToken, ?onlyData⟩
  case address => exact fun h => applyTokens_address h wa image later
  case data => exact fun ht hwa => applyTokens_data ht hwa image later
  case pastEnd => exact fun ht hwa => applyTokens_pastEnd ht hwa image later
  case text => intro text tokens h; simp only [loadObject, parseTokens_eq_some h]
  case badToken => intro text h; simp only [loadObject, parseTokens_eq_none h]
  case onlyData => decide +kernel

/-! ### The start of a run (R330, R333, R343; 60_exceptions R305; assumptions 15, 21) -/

theorem boot_of_ok {file : ProgramFile} {image : Memory} (h : load file = .ok image) (p : Launch) :
    boot p file = .ok (State.launch { p with memImage := image }) := by
  simp only [boot, h]

theorem boot_of_error {file : ProgramFile} {e : LoadError} (h : load file = .error e) (p : Launch) :
    boot p file = .error e := by
  simp only [boot, h]

/-- A launch from a canonical image is legal (10_state R38). -/
theorem launch_inv {p : Launch} (hmem : p.memImage.wf = true) (htape : p.env.rdrPos ≤ p.env.rdrTape.length) :
    Inv (State.launch p) := ⟨hmem, runAgrees_of_running rfl, htape⟩

theorem load_of_unreadable {file : ProgramFile} (h : file.content = none) : load file = .error .unreadable := by
  simp only [load, h]

theorem load_of_content {file : ProgramFile} {bytes : List Byte} (h : file.content = some bytes) :
    load file = if file.extension = ".rim" then loadRim bytes else loadObject (textOf bytes) := by
  simp only [load, h]

/-- Settles O3: every image a loader builds is canonical, so the launch from it is legal. -/
theorem bootStartsLegalRun : Obligations.BootStartsLegalRun := by
  intro p file htape
  refine ⟨fun image h => ?_, fun e h => boot_of_error h p, load_of_unreadable, fun bytes h => ?_⟩
  · exact ⟨_, boot_of_ok h p, launch_inv (load_wf h) htape, rfl, rfl, rfl⟩
  · rw [load_of_content h]
    exact ⟨fun hrim => if_pos hrim, fun hother => if_neg hother⟩

/-! ### The RIM loader (R339 to R344; D37) -/

theorem loadRim_leader (n : Nat) {bytes : List Byte} (h : bytes.head? ≠ some rimLeader) :
    loadRim (List.replicate n rimLeader ++ bytes) = applyBlocks [] bytes := by
  rw [loadRim, dropWhile_leader n bytes h]

/-- A stream of leader bytes alone has no block (R339). -/
theorem loadRim_replicate_leader (n : Nat) : loadRim (List.replicate n rimLeader) = .ok [] := by
  rw [← List.append_nil (List.replicate n rimLeader), loadRim_leader n (by simp)]
  rfl

/-- A marked lead byte is no leader byte, so the leader ends where the first block begins. -/
theorem ne_leader_of_marked {block : Block} (h : block.1.getLsbD 6 = true) : block.1 ≠ rimLeader := by
  intro heq
  rw [heq] at h
  exact absurd h (by decide)

/-- The words of the blocks are written, then the rest of the stream is read; with no block, the rest must not run on
from the leader. -/
theorem loadRim_blocks (n : Nat) {blocks : List Block} {rest : List Byte}
    (hmarked : ∀ b ∈ blocks, b.1.getLsbD 6 = true) (hrest : blocks = [] → rest.head? ≠ some rimLeader) :
    loadRim (List.replicate n rimLeader ++ blocks.flatMap (fun b => [b.1, b.2.1, b.2.2.1, b.2.2.2]) ++ rest) =
      applyBlocks (blocks.foldl (fun image b => image.write (rimWord b.1 b.2.1) (rimWord b.2.2.1 b.2.2.2)) [])
        rest := by
  rw [List.append_assoc, loadRim_leader, applyBlocks_append _ _ _ hmarked]
  cases blocks with
  | nil => exact hrest rfl
  | cons b later => simpa using ne_leader_of_marked (hmarked b (by simp))

/-- The trailer ends the load, whatever follows it (R340). -/
theorem applyBlocks_trailer (m : Memory) (rest : List Byte) : applyBlocks m (rimLeader :: rest) = .ok m := by
  rcases rest with _ | ⟨b1, _ | ⟨b2, _ | ⟨b3, rest⟩⟩⟩ <;> rfl

/-- A block that is not marked, or has fewer than four bytes, fails the load (R340, R342). -/
theorem applyBlocks_bad (m : Memory) {lead : Byte} {rest : List Byte} (hlead : lead ≠ rimLeader)
    (h : lead.getLsbD 6 = false ∨ (lead :: rest).length < 4) : ∃ e, applyBlocks m (lead :: rest) = .error e := by
  rcases rest with _ | ⟨b1, _ | ⟨b2, _ | ⟨b3, rest⟩⟩⟩
  case cons.cons.cons =>
    have hbit : lead.getLsbD 6 = false := h.resolve_right (by simp)
    exact ⟨.noAddressMark, by simp only [applyBlocks, if_neg hlead, hbit, Bool.false_eq_true, if_false]⟩
  all_goals exact ⟨.shortBlock, if_neg hlead⟩

/-- Settles O59: the blocks' words are written, and then the stream is at its end or at the trailer; with no block, what
stands there is leader to the end. -/
theorem rimStreamLoadsItsBlocks : Obligations.RimStreamLoadsItsBlocks := by
  intro n blocks tail hmarked htail
  simp only [← rimWord_eq]
  rcases htail with rfl | ⟨rest, rfl, hrest⟩
  · exact loadRim_blocks n hmarked (by simp)
  by_cases hblocks : blocks = []
  · obtain rfl : rest = [] := hrest.resolve_left (absurd hblocks)
    subst hblocks
    have hleader : List.replicate n rimLeader ++ [] ++ [rimLeader] = List.replicate (n + 1) rimLeader := by
      rw [List.append_nil, List.replicate_succ']
    exact (congrArg loadRim hleader).trans (loadRim_replicate_leader (n + 1))
  · exact (loadRim_blocks n hmarked (absurd · hblocks)).trans (applyBlocks_trailer _ rest)

/-- Settles O60: after the good blocks the bad one is read, and that fails. -/
theorem rimFormatErrorsFailTheLoad : Obligations.RimFormatErrorsFailTheLoad := by
  intro n blocks bad lead hmarked hhead hlead hbad
  obtain ⟨rest, rfl⟩ := List.head?_eq_some_iff.mp hhead
  obtain ⟨e, he⟩ := applyBlocks_bad _ hlead hbad
  have hrest : (lead :: rest).head? ≠ some rimLeader := fun h => hlead (Option.some.inj h)
  exact ⟨e, (loadRim_blocks n hmarked fun _ => hrest).trans he⟩

end Sys2Proof.Machine
end
